-- ==== Sys2Proof/Word.lean ====
section
/-! DEFINITION. The word types of SPIM. -/

namespace Sys2Proof

/-- A SPIM register value: every register is 32 bits wide (10_state.md R11). -/
abbrev Word := BitVec 32

/-- A byte on the SPI wire (20_memory.md R61). -/
abbrev Byte := BitVec 8

/-- A sensor register address, 0x00 to 0x3F (20_memory.md R63). -/
abbrev SensorAddr := BitVec 6

end Sys2Proof
end

