-- ==== Sys2Proof/Syntax.lean ====
section
/-! DEFINITION. The instructions: one constructor per row of spec/opcode_table.json, and the registers
that the BUS rows access. -/

namespace Sys2Proof

/-- The seven host-visible registers (10_state.md R11). -/
inductive Reg where
  | ctrl
  | status
  | dr
  | csctl
  | cmd
  | rdata
  | press
deriving DecidableEq, Repr

/-- SPIM's instructions: 14 host register accesses (30_encoding.md R66) and 5 protocol-engine
commands (30_encoding.md R68). -/
inductive Instr where
  | rdCtrl
  | wrCtrl (v : Word)
  | rdStatus
  | wrStatus (v : Word)
  | rdDr
  | wrDr (v : Word)
  | rdCsctl
  | wrCsctl (v : Word)
  | rdCmd
  | wrCmd (v : Word)
  | rdRdata
  | wrRdata (v : Word)
  | rdPress
  | wrPress (v : Word)
  /-- READ1 a: single-register read. -/
  | read1 (a : SensorAddr)
  /-- READN a, n: auto-increment read of n bytes. -/
  | readn (a : SensorAddr) (n : BitVec 2)
  /-- WRITE a, d: single-register write. -/
  | write (a : SensorAddr) (d : Byte)
  /-- INIT d: identification check, then the wake-up byte d to CTRL_REG1. -/
  | init (d : Byte)
  /-- READP: three-byte pressure read. -/
  | readp
deriving DecidableEq, Repr

/-- The host read of a register. -/
def Reg.read : Reg → Instr
  | .ctrl => .rdCtrl
  | .status => .rdStatus
  | .dr => .rdDr
  | .csctl => .rdCsctl
  | .cmd => .rdCmd
  | .rdata => .rdRdata
  | .press => .rdPress

/-- The host write of `v` to a register. -/
def Reg.write (v : Word) : Reg → Instr
  | .ctrl => .wrCtrl v
  | .status => .wrStatus v
  | .dr => .wrDr v
  | .csctl => .wrCsctl v
  | .cmd => .wrCmd v
  | .rdata => .wrRdata v
  | .press => .wrPress v

end Sys2Proof
end

