-- ==== Sys2Proof/WellFormed.lean ====
section
/-! DEFINITION. Which instructions are well-formed. Every operand's width is its type, so one check is
left: READN's byte count. -/

namespace Sys2Proof

/-- READN receives 1, 2 or 3 bytes; CNT = 0 is illegal (30_encoding.md R71, R73). -/
def Instr.wellFormed : Instr → Bool
  | .readn _ n => n != 0
  | .rdCtrl => true
  | .wrCtrl _ => true
  | .rdStatus => true
  | .wrStatus _ => true
  | .rdDr => true
  | .wrDr _ => true
  | .rdCsctl => true
  | .wrCsctl _ => true
  | .rdCmd => true
  | .wrCmd _ => true
  | .rdRdata => true
  | .wrRdata _ => true
  | .rdPress => true
  | .wrPress _ => true
  | .read1 _ => true
  | .write _ _ => true
  | .init _ => true
  | .readp => true

end Sys2Proof
end

