-- ==== Sys2Proof/Decode.lean ====
section
/-! DEFINITION. Decoding of host access descriptors (format BUS) and of protocol-engine command words
(format CMD), total and rejecting by name, and the encoder written from the same tables. -/

namespace Sys2Proof

/-- Why an encoding is not an instruction. -/
inductive DecodeError where
  /-- A descriptor's offset is not a multiple of 4 (20_memory.md R52). -/
  | misaligned
  /-- A descriptor's offset is a multiple of 4 that holds no register (20_memory.md R53, 30_encoding.md R66). -/
  | unmapped
  /-- A command word that is not legal (30_encoding.md R73). -/
  | illegalCommand
deriving DecidableEq, Repr

/-- The two things a decoder reads (30_encoding.md): a host access descriptor with the value a write
carries, or a command word. -/
inductive Encoded where
  | bus (d : BitVec 9) (v : Word)
  | cmd (w : Word)
deriving DecidableEq, Repr

/-! ### Format BUS -/

/-- The byte offset of a register from SPIM_BASE (10_state.md R11). -/
def Reg.off : Reg → BitVec 8
  | .ctrl => 0x00
  | .status => 0x04
  | .dr => 0x08
  | .csctl => 0x0C
  | .cmd => 0x10
  | .rdata => 0x14
  | .press => 0x18

/-- The register at an offset (10_state.md R11). -/
def regAt (off : BitVec 8) : Option Reg :=
  if off = 0x00 then some .ctrl
  else if off = 0x04 then some .status
  else if off = 0x08 then some .dr
  else if off = 0x0C then some .csctl
  else if off = 0x10 then some .cmd
  else if off = 0x14 then some .rdata
  else if off = 0x18 then some .press
  else none

/-- The access descriptor `D = W ++ off` (30_encoding.md R66). -/
def descriptor (isWrite : Bool) (off : BitVec 8) : BitVec 9 :=
  BitVec.ofBool isWrite ++ off

/-- The offset field `D[7:0]` of a descriptor. -/
def descriptorOff (d : BitVec 9) : BitVec 8 := d.extractLsb' 0 8

/-- The direction bit `D[8]` of a descriptor, 1 for a write. -/
def descriptorIsWrite (d : BitVec 9) : Bool := d.getLsbD 8

/-- Decode a host access (30_encoding.md R66); alignment is looked at before the map (60_exceptions.md
R116). A read carries no value, so `v` is not looked at for one. -/
def decodeBus (d : BitVec 9) (v : Word) : Except DecodeError Instr :=
  if (descriptorOff d).extractLsb' 0 2 ≠ 0 then .error .misaligned
  else match regAt (descriptorOff d) with
    | none => .error .unmapped
    | some r => .ok (if descriptorIsWrite d then r.write v else r.read)

/-! ### Format CMD -/

/-- OP, bits 3:0 (30_encoding.md R67). -/
def opField (w : Word) : BitVec 4 := w.extractLsb' 0 4

/-- CNT, bits 5:4. -/
def cntField (w : Word) : BitVec 2 := w.extractLsb' 4 2

/-- ADDR, bits 13:8. -/
def addrField (w : Word) : SensorAddr := w.extractLsb' 8 6

/-- DATA, bits 23:16. -/
def dataField (w : Word) : Byte := w.extractLsb' 16 8

/-- `Legal(w)` (30_encoding.md R73): reserved bits 7:6, 15:14 and 31:24 are 0, OP is one of the five,
and every field OP does not use is 0. -/
def legal (w : Word) : Bool :=
  w.extractLsb' 6 2 == 0 && w.extractLsb' 14 2 == 0 && w.extractLsb' 24 8 == 0 &&
    ((opField w == 1 && cntField w == 0 && dataField w == 0) ||
     (opField w == 2 && cntField w != 0 && dataField w == 0) ||
     (opField w == 3 && cntField w == 0) ||
     (opField w == 4 && cntField w == 0 && addrField w == 0) ||
     (opField w == 5 && cntField w == 0 && addrField w == 0 && dataField w == 0))

/-- Decode a command word: by `Legal`, then by OP (30_encoding.md R75). -/
def decodeCmd (w : Word) : Except DecodeError Instr :=
  if legal w then
    if opField w = 1 then .ok (.read1 (addrField w))
    else if opField w = 2 then .ok (.readn (addrField w) (cntField w))
    else if opField w = 3 then .ok (.write (addrField w) (dataField w))
    else if opField w = 4 then .ok (.init (dataField w))
    else .ok .readp
  else .error .illegalCommand

/-- Decode either format. -/
def decode : Encoded → Except DecodeError Instr
  | .bus d v => decodeBus d v
  | .cmd w => decodeCmd w

/-! ### The encoder -/

/-- The symbolic command words of 30_encoding.md R76. -/
def read1Word (a : SensorAddr) : Word := 0x00000001 ||| a.setWidth 32 <<< 8

def readnWord (a : SensorAddr) (n : BitVec 2) : Word :=
  0x00000002 ||| a.setWidth 32 <<< 8 ||| n.setWidth 32 <<< 4

def writeWord (a : SensorAddr) (d : Byte) : Word :=
  0x00000003 ||| a.setWidth 32 <<< 8 ||| d.setWidth 32 <<< 16

def initWord (d : Byte) : Word := 0x00000004 ||| d.setWidth 32 <<< 16

def readpWord : Word := 0x00000005

/-- A read's encoding; a read carries no value, written here as 0. -/
def Reg.readEncoded (r : Reg) : Encoded := .bus (descriptor false r.off) 0

def Reg.writeEncoded (r : Reg) (v : Word) : Encoded := .bus (descriptor true r.off) v

/-- The encoding of an instruction (30_encoding.md R66, R67, R76). -/
def encode : Instr → Encoded
  | .rdCtrl => Reg.ctrl.readEncoded
  | .wrCtrl v => Reg.ctrl.writeEncoded v
  | .rdStatus => Reg.status.readEncoded
  | .wrStatus v => Reg.status.writeEncoded v
  | .rdDr => Reg.dr.readEncoded
  | .wrDr v => Reg.dr.writeEncoded v
  | .rdCsctl => Reg.csctl.readEncoded
  | .wrCsctl v => Reg.csctl.writeEncoded v
  | .rdCmd => Reg.cmd.readEncoded
  | .wrCmd v => Reg.cmd.writeEncoded v
  | .rdRdata => Reg.rdata.readEncoded
  | .wrRdata v => Reg.rdata.writeEncoded v
  | .rdPress => Reg.press.readEncoded
  | .wrPress v => Reg.press.writeEncoded v
  | .read1 a => .cmd (read1Word a)
  | .readn a n => .cmd (readnWord a n)
  | .write a d => .cmd (writeWord a d)
  | .init d => .cmd (initWord d)
  | .readp => .cmd readpWord

/-! ### The opcode table -/

/-- A row of spec/opcode_table.json: `width` bits, the bits under `mask` fixed to `value`. -/
structure OpcodeRow where
  mnemonic : String
  width : Nat
  value : Nat
  mask : Nat
deriving DecidableEq, Repr

/-- The table's row of each instruction. -/
def opcodeRow : Instr → OpcodeRow
  | .rdCtrl => ⟨"RD_CTRL", 9, 0x000, 0x1FF⟩
  | .wrCtrl _ => ⟨"WR_CTRL", 9, 0x100, 0x1FF⟩
  | .rdStatus => ⟨"RD_STATUS", 9, 0x004, 0x1FF⟩
  | .wrStatus _ => ⟨"WR_STATUS", 9, 0x104, 0x1FF⟩
  | .rdDr => ⟨"RD_DR", 9, 0x008, 0x1FF⟩
  | .wrDr _ => ⟨"WR_DR", 9, 0x108, 0x1FF⟩
  | .rdCsctl => ⟨"RD_CSCTL", 9, 0x00C, 0x1FF⟩
  | .wrCsctl _ => ⟨"WR_CSCTL", 9, 0x10C, 0x1FF⟩
  | .rdCmd => ⟨"RD_CMD", 9, 0x010, 0x1FF⟩
  | .wrCmd _ => ⟨"WR_CMD", 9, 0x110, 0x1FF⟩
  | .rdRdata => ⟨"RD_RDATA", 9, 0x014, 0x1FF⟩
  | .wrRdata _ => ⟨"WR_RDATA", 9, 0x114, 0x1FF⟩
  | .rdPress => ⟨"RD_PRESS", 9, 0x018, 0x1FF⟩
  | .wrPress _ => ⟨"WR_PRESS", 9, 0x118, 0x1FF⟩
  | .read1 _ => ⟨"READ1", 32, 0x00000001, 0xFFFFC0FF⟩
  | .readn _ _ => ⟨"READN", 32, 0x00000002, 0xFFFFC0CF⟩
  | .write _ _ => ⟨"WRITE", 32, 0x00000003, 0xFF00C0FF⟩
  | .init _ => ⟨"INIT", 32, 0x00000004, 0xFF00FFFF⟩
  | .readp => ⟨"READP", 32, 0x00000005, 0xFFFFFFFF⟩

/-- The five CMD rows of the table. -/
def commandRows : List OpcodeRow :=
  [opcodeRow (.read1 0), opcodeRow (.readn 0 1), opcodeRow (.write 0 0), opcodeRow (.init 0),
    opcodeRow .readp]

/-- A command word falls under a row. -/
def OpcodeRow.coversWord (row : OpcodeRow) (w : Word) : Bool :=
  w &&& BitVec.ofNat 32 row.mask == BitVec.ofNat 32 row.value

/-- An encoding falls under a row. -/
def OpcodeRow.covers (row : OpcodeRow) : Encoded → Bool
  | .bus d _ => row.width == 9 && d &&& BitVec.ofNat 9 row.mask == BitVec.ofNat 9 row.value
  | .cmd w => row.width == 32 && row.coversWord w

/-! ### The table's numbering -/

/-- What stands in an instruction of `nbits` bits numbered as the table numbers them (log 21): up to 16
bits a 9-bit descriptor whose write value is 0, 32 bits a command word; nothing else. -/
def encodedOfTable (nbits w : Nat) : Option Encoded :=
  if nbits ≤ 16 then
    if w < 512 then some (.bus (BitVec.ofNat 9 w) 0) else none
  else if nbits = 32 then
    if w < 4294967296 then some (.cmd (BitVec.ofNat 32 w)) else none
  else none

/-- The instruction the decoder reads from a word of the table. -/
def decodeTableWord (nbits w : Nat) : Option Instr :=
  match encodedOfTable nbits w with
  | none => none
  | some e =>
    match decode e with
    | .ok i => some i
    | .error _ => none

end Sys2Proof
end

