-- ==== Sys2Proof/Machine/Operands.lean ====
section
/-! DEFINITION. The operand forms: framing bytes, the parts of a written register value, and the
arithmetic of sample assembly and identification. -/

namespace Sys2Proof.Machine

/-! ### Framing bytes (30_encoding.md R74) -/

/-- Single-register read: `register-address OR 0x80`. -/
def readFrame (a : SensorAddr) : Byte := 0x80 ||| a.setWidth 8

/-- Auto-increment read: `register-address OR 0xC0`. -/
def incFrame (a : SensorAddr) : Byte := 0xC0 ||| a.setWidth 8

/-- Write: `register-address unmodified`. -/
def writeFrame (a : SensorAddr) : Byte := a.setWidth 8

/-- WHO_AM_I_ADDR (00_scope.md R7). -/
def whoAmIAddr : SensorAddr := 0x0F

/-- CTRL_REG1_ADDR (00_scope.md R7). -/
def ctrlReg1Addr : SensorAddr := 0x20

/-- PRESS_OUT_ADDR (00_scope.md R7). -/
def pressOutAddr : SensorAddr := 0x28

/-- EXPECTED_ID (00_scope.md R7). -/
def expectedId : Byte := 0xBD

/-! ### Written values -/

/-- Bits 7:0, the byte a DR write sends (10_state.md R34). -/
def drByte (v : Word) : Byte := v.extractLsb' 0 8

/-- Bits 9:0, what a CTRL write stores (10_state.md R20). -/
def ctrlBits (v : Word) : BitVec 10 := v.extractLsb' 0 10

/-- Bit 0, ASSERT of a CSCTL write (10_state.md R35). -/
def assertBit (v : Word) : Bool := v.getLsbD 0

/-! ### Results -/

/-- One bit placed at position `k` of a register value. -/
def bitAt (b : Bool) (k : Nat) : Word := (BitVec.ofBool b).setWidth 32 <<< k

/-- The three-byte result register: byte k at bits `[8k+7:8k]` (10_state.md R37). -/
def threeBytes (b0 b1 b2 : Byte) : Word :=
  b0.setWidth 32 ||| b1.setWidth 32 <<< 8 ||| b2.setWidth 32 <<< 16

/-- Assemble (42_sample_assembly.md R108): no sign extension of bit 23 (90_conflicts.md C2). -/
def assemble (low mid high : Byte) : Word :=
  high.setWidth 32 <<< 16 ||| mid.setWidth 32 <<< 8 ||| low.setWidth 32

/-- Convert (42_sample_assembly.md R109): arithmetic right shift by 12. -/
def convert (raw : Word) : Word := raw.sshiftRight 12

/-- IdCheck (42_sample_assembly.md R111). -/
def idCheck (b : Byte) : Bool := b == expectedId

end Sys2Proof.Machine
end

