-- ==== Sys2Proof/Config.lean ====
section
/-! DEFINITION. What the hardware instance fixes and the values the spec leaves open, and the event
history's events, which one of those values depends on. -/

namespace Sys2Proof

/-- Which path made a byte exchange (10_state.md R45). -/
inductive Source where
  | manual
  | engine
deriving DecidableEq, Repr

/-- One event of the event history (10_state.md R45). Levels are `true` for 1. -/
inductive Event where
  /-- A HOST write of `v` to the register at offset `off`. -/
  | hw (off : BitVec 8) (v : Word)
  /-- A HOST read of the register at offset `off` that returned `v`. -/
  | hr (off : BitVec 8) (v : Word)
  /-- `cs_n` changed to `level`. -/
  | cs (level : Bool)
  /-- A byte exchange at level `csN` of `cs_n`: `t` was sent, `r` was received. -/
  | xfer (csN : Bool) (t r : Byte) (src : Source)
deriving DecidableEq, Repr

/-- SPIM_BASE / 32. OPEN (00_scope.md R4): no value, so nothing can be proved about it (log 5). -/
opaque Config.spimWindow : Nat

/-- SPIM_BASE, the host address of the register window: an OPEN multiple of 32 (00_scope.md R4). -/
def Config.spimBase : Nat := 32 * Config.spimWindow

/-- DUMMY_BYTE, sent by the engine when it only receives. OPEN (00_scope.md R5, log 4): no value. -/
opaque Config.dummyByte : Byte

/-- SlaveAnswer(history, cs_n, t) of 00_scope.md R9: the byte the SLAVE answers, under no law. A free
value (log 3). -/
opaque Config.slaveAnswer : List Event → Bool → Byte → Byte

end Sys2Proof
end

