-- ==== Sys2Proof/Machine/State.lean ====
section
/-! DEFINITION. SPIM's state, everything the spec gives it, and the inputs its environment holds ready. -/

namespace Sys2Proof.Machine

/-- Why a run stops with a bus error (60_exceptions.md R113, R114). The access has no effect. Each is
the spec's own, raised by any host access; stopping is safe. -/
inductive Fault where
  /-- NOCLOCK: `clk_ok` is false. Raised by `hostAccess` and by every BUS meaning. Safe. -/
  | busNoClock
  /-- WIDTH: the access size is not 4 bytes. Raised by `hostAccess`. Safe. -/
  | busWidth
  /-- ALIGN: the offset is not a multiple of 4. Raised by `hostAccess`. Safe. -/
  | busAlign
  /-- UNMAPPED: no register at the offset. Raised by `hostAccess`. Safe. -/
  | busUnmapped
deriving DecidableEq, Repr

/-- What the model refuses. -/
inductive Refusal where
  /-- An instruction that has no meaning yet. Raised by no arm of `exec`. Safe. -/
  | notModelled (mnemonic : String)
  /-- A host access at an address outside SPIM's window, which SPIM does not answer
  (20_memory.md R50, log 5). Raised by `hostTurn`. Safe. -/
  | notSpimAddress
  /-- A reset after the first step of a run, which a model does not admit
  (70_reset_and_hazards.md R125). Raised by `takeTurn`. Safe. -/
  | resetAfterFirstStep
deriving DecidableEq, Repr

/-- A micro-operation of the protocol engine (41_protocol_engine.md R92). -/
inductive MicroOp where
  /-- Assert chip-select. -/
  | csa
  /-- Exchange byte `t`, discard the byte received. -/
  | xs (t : Byte)
  /-- Exchange byte `t`, store the byte received in ENG_RX[k]. -/
  | xr (t : Byte) (k : Fin 3)
  /-- Deassert chip-select. -/
  | csd
  /-- Commit the results and finish. -/
  | fin
deriving DecidableEq, Repr

/-- A host access as it arrives at SPIM (30_encoding.md R66): direction, offset from SPIM_BASE, size in
bytes and, for a write, the value. -/
structure Access where
  isWrite : Bool
  off : BitVec 8
  size : Nat
  value : Word
deriving DecidableEq, Repr

/-- One operation of HOST's program (30_encoding.md R76; 00_scope.md section 5). -/
inductive HostOp where
  /-- An access at SPIM's port. -/
  | access (a : Access)
  /-- `MemRead(addr, size)` or `MemWrite(addr, size, value)` at a host address. -/
  | mem (isWrite : Bool) (addr : Nat) (size : Nat) (value : Word)
  /-- `POLL reg, m, v`: read `reg` until `(value & m) == v`. -/
  | poll (r : Reg) (m v : Word)
deriving DecidableEq, Repr

/-- Who takes a step: HOST, one of SEQ's steps, or the platform's reset input (00_scope.md R8, R10;
70_reset_and_hazards.md R124). -/
inductive Agent where
  | host
  | shiftLoad
  | shiftDone
  | engine
  | rst
deriving DecidableEq, Repr

/-- SPIM's state. Single bits are `true` for 1. -/
structure State where
  /-- The platform input `clk_ok` (00_scope.md R6). -/
  clkOk : Bool
  /-- A step of the run was taken (the model's own, log 15). -/
  started : Bool
  /-- Which agents take the coming steps (the model's own, log 1). -/
  sched : List Agent
  /-- HOST's coming operations (the model's own, log 1). -/
  host : List HostOp
  /-- The SLAVE's coming answers (the model's own, log 3). -/
  misoFeed : List Byte
  /-- CTRL bits 9:0; bits 31:10 are reserved and have no storage (10_state.md R12 to R20). -/
  ctrl : BitVec 10
  /-- STATUS.RXNE (10_state.md R22). -/
  rxne : Bool
  /-- STATUS.TXE (10_state.md R23). -/
  txe : Bool
  /-- STATUS.OVR (10_state.md R24). -/
  ovr : Bool
  /-- STATUS.EBUSY (10_state.md R26). -/
  ebusy : Bool
  /-- STATUS.DONE (10_state.md R27). -/
  done : Bool
  /-- STATUS.IDOK (10_state.md R28). -/
  idok : Bool
  /-- STATUS.ERR_CMD (10_state.md R29). -/
  errCmd : Bool
  /-- STATUS.ERR_BUSY (10_state.md R30). -/
  errBusy : Bool
  /-- STATUS.ERR_CFG (10_state.md R31). -/
  errCfg : Bool
  /-- STATUS.ERR_TXOVW (10_state.md R32). -/
  errTxovw : Bool
  /-- TXBUF (10_state.md R39). -/
  txbuf : Byte
  /-- SH_ACTIVE (10_state.md R40). -/
  shActive : Bool
  /-- SHIFT (10_state.md R40). -/
  shift : Byte
  /-- RXBUF (10_state.md R41). -/
  rxbuf : Byte
  /-- CSCTL.ASSERT (10_state.md R35). -/
  csAssert : Bool
  /-- CMD read-back (10_state.md R36). -/
  cmd : Word
  /-- RDATA (10_state.md R37). -/
  rdata : Word
  /-- PRESS (10_state.md R38). -/
  press : Word
  /-- ENG_OPS (10_state.md R42). -/
  engOps : List MicroOp
  /-- ENG_IDX (10_state.md R42). -/
  engIdx : Nat
  /-- ENG_CMD, the word of the running command (10_state.md R42, 41_protocol_engine.md R91; log 12). -/
  engCmd : Word
  /-- ENG_RX[0] (10_state.md R42). -/
  engRx0 : Byte
  /-- ENG_RX[1]. -/
  engRx1 : Byte
  /-- ENG_RX[2]. -/
  engRx2 : Byte
  /-- ENG_CS (10_state.md R42). -/
  engCs : Bool
  /-- The event history, oldest event first (10_state.md R45). -/
  history : List Event
deriving DecidableEq, Repr

/-- SPIM right after reset (70_reset_and_hazards.md R124, 10_state.md section 8), launched with
`clk_ok = true` (log 6) and with no input waiting (log 1 to 3); ENG_CMD's value is log 7's. -/
def State.reset : State where
  clkOk := true
  started := false
  sched := []
  host := []
  misoFeed := []
  ctrl := 0
  rxne := false
  txe := true
  ovr := false
  ebusy := false
  done := false
  idok := false
  errCmd := false
  errBusy := false
  errCfg := false
  errTxovw := false
  txbuf := 0
  shActive := false
  shift := 0
  rxbuf := 0
  csAssert := false
  cmd := 0
  rdata := 0
  press := 0
  engOps := []
  engIdx := 0
  engCmd := 0
  engRx0 := 0
  engRx1 := 0
  engRx2 := 0
  engCs := false
  history := []

end Sys2Proof.Machine
end

