-- ==== Sys2Proof/Machine/Flags.lean ====
section
/-! DEFINITION. CTRL's fields, every STATUS flag computation, and the levels derived from state. -/

namespace Sys2Proof.Machine

/-! ### CTRL fields (10_state.md R12 to R19) -/

def State.cpha (s : State) : Bool := s.ctrl.getLsbD 0
def State.cpol (s : State) : Bool := s.ctrl.getLsbD 1
def State.mstr (s : State) : Bool := s.ctrl.getLsbD 2
def State.br (s : State) : BitVec 3 := s.ctrl.extractLsb' 3 3
def State.en (s : State) : Bool := s.ctrl.getLsbD 6
def State.lsbfirst (s : State) : Bool := s.ctrl.getLsbD 7
def State.ssi (s : State) : Bool := s.ctrl.getLsbD 8
def State.ssm (s : State) : Bool := s.ctrl.getLsbD 9

/-- ENBIT (40_spi_exchange.md R79). -/
def enBit : BitVec 10 := 0x040

/-- The seven configuration fields: CTRL without EN. -/
def cfgBits (c : BitVec 10) : BitVec 10 := c &&& ~~~enBit

/-- SUPPORTED_CFG (10_state.md R21). -/
def supportedCfg : BitVec 10 := 0x31F

/-! ### Levels -/

/-- The chip-select output `cs_n` (10_state.md R43). -/
def State.csN (s : State) : Bool := !(s.csAssert || s.engCs)

/-- The idle level of `sck`: high while enabled; the spec gives no level while disabled
(10_state.md R44, log 14). -/
def State.sckIdle (s : State) : Option Bool := if s.en then some s.cpol else none

/-! ### STATUS -/

/-- BSY, computed (10_state.md R25). -/
def State.bsy (s : State) : Bool := !s.txe || s.shActive || s.ebusy

/-- The value a STATUS read returns (40_spi_exchange.md R80). -/
def State.statusWord (s : State) : Word :=
  bitAt s.rxne 0 ||| bitAt s.txe 1 ||| bitAt s.ovr 6 ||| bitAt s.bsy 7 |||
  bitAt s.ebusy 16 ||| bitAt s.done 17 ||| bitAt s.idok 18 |||
  bitAt s.errCmd 24 ||| bitAt s.errBusy 25 ||| bitAt s.errCfg 26 ||| bitAt s.errTxovw 27

/-- The value a CSCTL read returns (40_spi_exchange.md R84). -/
def State.csctlWord (s : State) : Word := bitAt s.csAssert 0 ||| bitAt s.csN 1

/-- A write of 1 to a sticky bit clears it (40_spi_exchange.md R81). -/
def State.clearSticky (v : Word) (s : State) : State :=
  { s with
    ovr := s.ovr && !v.getLsbD 6
    done := s.done && !v.getLsbD 17
    errCmd := s.errCmd && !v.getLsbD 24
    errBusy := s.errBusy && !v.getLsbD 25
    errCfg := s.errCfg && !v.getLsbD 26
    errTxovw := s.errTxovw && !v.getLsbD 27 }

/-- set STATUS.ERR_CMD (10_state.md R29). -/
def State.setErrCmd (s : State) : State := { s with errCmd := true }

/-- set STATUS.ERR_BUSY (10_state.md R30). -/
def State.setErrBusy (s : State) : State := { s with errBusy := true }

/-- set STATUS.ERR_CFG (10_state.md R31). -/
def State.setErrCfg (s : State) : State := { s with errCfg := true }

/-- set STATUS.ERR_TXOVW (10_state.md R32). -/
def State.setErrTxovw (s : State) : State := { s with errTxovw := true }

end Sys2Proof.Machine
end

