-- ==== Sys2Proof/Machine/Ops.lean ====
section
/-! DEFINITION. The operations the meanings share: the event history, chip-select, the byte exchange,
host accesses, reset. SPIM takes no exception (60_exceptions.md R112, R117): a bus error is a fault
that changes nothing, a refused write sets one sticky bit. -/

namespace Sys2Proof.Machine

/-- What one step answers. -/
abbrev Result := Host.Outcome State Fault Refusal

/-- Append an event to the history (10_state.md R45). -/
def State.record (e : Event) (s : State) : State := { s with history := s.history ++ [e] }

/-- Drive `cs_n` from the two requests; `CS` is recorded when the level changes (00_scope.md section 5,
10_state.md R43). -/
def State.driveCs (asserted engine : Bool) (s : State) : State :=
  let t : State := { s with csAssert := asserted, engCs := engine }
  if t.csN = s.csN then t else t.record (.cs t.csN)

/-- The byte the SLAVE answers to `t` (00_scope.md R9): the next one held ready, else the oracle's
(log 3). -/
def State.answer (s : State) (t : Byte) : Byte :=
  match s.misoFeed with
  | r :: _ => r
  | [] => Config.slaveAnswer s.history s.csN t

/-- The state after `Exchange(t)`: one atomic step that records the exchange (40_spi_exchange.md R88).
The byte received is `s.answer t`. -/
def State.exchange (src : Source) (t : Byte) (s : State) : State :=
  { s with
    misoFeed := s.misoFeed.tail
    history := s.history ++ [.xfer s.csN t (s.answer t) src] }

/-- A host read of register `r` that returns `v` and leaves `s`, with its HR event. -/
def hostRead (r : Reg) (v : Word) (s : State) : Result :=
  if s.clkOk then .next (s.record (.hr r.off v)) else .fault .busNoClock

/-- A host write of `v` to register `r` with its HW event, which each host write has (10_state.md R45), a
refused or ignored one too, recorded first (log 10), and its effect. -/
def hostWrite (r : Reg) (v : Word) (effect : State → State) (s : State) : Result :=
  if s.clkOk then .next (effect (s.record (.hw r.off v))) else .fault .busNoClock

/-- The value the last host read returned, as its HR event holds it (log 9). -/
def State.lastRead (s : State) : Option Word :=
  match s.history.getLast? with
  | some (.hr _ v) => some v
  | _ => none

/-- Reset: every piece of SPIM's state at its reset value, a byte or command in progress abandoned
(70_reset_and_hazards.md R124). What the environment holds stays: `clk_ok`, the inputs, the schedule. -/
def State.applyReset (s : State) : State :=
  { State.reset with
    clkOk := s.clkOk
    started := s.started
    sched := s.sched
    host := s.host
    misoFeed := s.misoFeed }

end Sys2Proof.Machine
end

