-- ==== Sys2Proof/Machine/Engine.lean ====
section
/-! DEFINITION. The protocol engine (41_protocol_engine.md): micro-programs, micro-steps, the result
writes, and the five commands as the engine runs them. -/

namespace Sys2Proof.Machine

/-! ### Micro-programs (41_protocol_engine.md R92) -/

/-- XR(D, 0), XR(D, 1), XR(D, 2): the receive operations of a read. -/
def receiveOps : List MicroOp :=
  [.xr Config.dummyByte 0, .xr Config.dummyByte 1, .xr Config.dummyByte 2]

/-- READ1's micro-program (R93). -/
def read1Program (a : SensorAddr) : List MicroOp :=
  [.csa, .xs (readFrame a), .xr Config.dummyByte 0, .csd, .fin]

/-- READN's micro-program (R94). -/
def readnProgram (a : SensorAddr) (n : BitVec 2) : List MicroOp :=
  [.csa, .xs (incFrame a)] ++ receiveOps.take n.toNat ++ [.csd, .fin]

/-- WRITE's micro-program (R95). -/
def writeProgram (a : SensorAddr) (d : Byte) : List MicroOp :=
  [.csa, .xs (writeFrame a), .xs d, .csd, .fin]

/-- INIT's micro-program (R96): two transactions. -/
def initProgram (d : Byte) : List MicroOp :=
  [.csa, .xs (readFrame whoAmIAddr), .xr Config.dummyByte 0, .csd,
   .csa, .xs (writeFrame ctrlReg1Addr), .xs d, .csd, .fin]

/-- READP's micro-program (R97). -/
def readpProgram : List MicroOp :=
  [.csa, .xs (incFrame pressOutAddr)] ++ receiveOps ++ [.csd, .fin]

/-- The micro-program of a command; a BUS access has none. -/
def Program.ofInstr : Instr → List MicroOp
  | .read1 a => read1Program a
  | .readn a n => readnProgram a n
  | .write a d => writeProgram a d
  | .init d => initProgram d
  | .readp => readpProgram
  | .rdCtrl => []
  | .wrCtrl _ => []
  | .rdStatus => []
  | .wrStatus _ => []
  | .rdDr => []
  | .wrDr _ => []
  | .rdCsctl => []
  | .wrCsctl _ => []
  | .rdCmd => []
  | .wrCmd _ => []
  | .rdRdata => []
  | .wrRdata _ => []
  | .rdPress => []
  | .wrPress _ => []

/-- `Expand(w)` (R92); empty for a word that is not legal. -/
def expand (w : Word) : List MicroOp :=
  match decodeCmd w with
  | .ok i => Program.ofInstr i
  | .error _ => []

/-! ### Starting a command -/

/-- The state in which the engine has taken the word `w` (R91, acceptance): nothing of it has run. -/
def State.startCommand (w : Word) (s : State) : State :=
  { s with
    cmd := w
    engCmd := w
    engOps := expand w
    engIdx := 0
    engRx0 := 0
    engRx1 := 0
    engRx2 := 0
    done := false
    ebusy := true }

/-! ### Micro-steps -/

/-- The micro-operation the engine stands at, `x[ENG_OPS][x[ENG_IDX]]`. -/
def State.currentOp (s : State) : Option MicroOp := s.engOps[s.engIdx]?

/-- ENG_IDX advances by 1. -/
def State.advance (s : State) : State := { s with engIdx := s.engIdx + 1 }

/-- `x[ENG_RX[k]] <- r`. -/
def State.setRx (k : Fin 3) (r : Byte) (s : State) : State :=
  match k with
  | 0 => { s with engRx0 := r }
  | 1 => { s with engRx1 := r }
  | 2 => { s with engRx2 := r }

/-- The end of ENG_FIN, after the result writes (R101). -/
def State.finish (s : State) : State :=
  { s with ebusy := false, done := true, engOps := [], engIdx := 0 }

/-- ENG_CSA (R98). -/
def engCsa (s : State) : State := (s.driveCs s.csAssert true).advance

/-- ENG_X of XS(t) (R99): the byte received is discarded. -/
def engXs (t : Byte) (s : State) : State := (s.exchange .engine t).advance

/-- ENG_X of XR(t, k) (R99). -/
def engXr (t : Byte) (k : Fin 3) (s : State) : State :=
  ((s.exchange .engine t).setRx k (s.answer t)).advance

/-- ENG_CSD (R100). -/
def engCsd (s : State) : State := (s.driveCs s.csAssert false).advance

/-- A micro-operation may be taken (R98 to R101): an exchange only while CTRL.EN = 1. -/
def opEnabled (en : Bool) : MicroOp → Bool
  | .csa => true
  | .xs _ => en
  | .xr _ _ => en
  | .csd => true
  | .fin => true

/-- The engine has a micro-step to take. -/
def engineEnabled (s : State) : Bool :=
  s.clkOk && s.ebusy && (match s.currentOp with
    | some op => opEnabled s.en op
    | none => false)

/-- The effect of one micro-operation; `commit` is the running command's result writes. -/
def runOp (commit : State → State) (s : State) : MicroOp → State
  | .csa => engCsa s
  | .xs t => engXs t s
  | .xr t k => engXr t k s
  | .csd => engCsd s
  | .fin => (commit s).finish

/-- One micro-step (R98 to R101); nothing while none is enabled (log 16). -/
def microStep (commit : State → State) (s : State) : State :=
  if engineEnabled s then
    match s.currentOp with
    | some op => runOp commit s op
    | none => s
  else s

/-- One step of the engine executing the command whose word is `w`: its next micro-operation. While the
engine runs no command or another one, no micro-step of this one is enabled (log 11). -/
def engineStep (w : Word) (commit : State → State) (s : State) : Result :=
  .next (if s.engCmd = w then microStep commit s else s)

/-! ### Result writes, and the commands -/

/-- READ1's results (R93). -/
def commitRead1 (s : State) : State := { s with rdata := s.engRx0.setWidth 32 }

/-- READN's results (R94). -/
def commitReadn (s : State) : State :=
  { s with rdata := threeBytes s.engRx0 s.engRx1 s.engRx2 }

/-- WRITE's results (R95): RDATA, PRESS and IDOK stay. -/
def commitWrite (s : State) : State := s

/-- INIT's results (R96). -/
def commitInit (s : State) : State :=
  { s with rdata := s.engRx0.setWidth 32, idok := idCheck s.engRx0 }

/-- READP's results (R97). -/
def commitReadp (s : State) : State :=
  let raw := assemble s.engRx0 s.engRx1 s.engRx2
  { s with rdata := raw, press := convert raw }

/-- READ1 a (R93). -/
def execRead1 (a : SensorAddr) (s : State) : Result := engineStep (read1Word a) commitRead1 s

/-- READN a, n (R94). -/
def execReadn (a : SensorAddr) (n : BitVec 2) (s : State) : Result :=
  engineStep (readnWord a n) commitReadn s

/-- WRITE a, d (R95). -/
def execWrite (a : SensorAddr) (d : Byte) (s : State) : Result :=
  engineStep (writeWord a d) commitWrite s

/-- INIT d (R96). -/
def execInit (d : Byte) (s : State) : Result := engineStep (initWord d) commitInit s

/-- READP (R97). -/
def execReadp (s : State) : Result := engineStep readpWord commitReadp s

end Sys2Proof.Machine
end

