-- ==== Sys2Proof/Machine/Results.lean ====
section
/-! DEFINITION. The accesses to CMD, RDATA and PRESS (41_protocol_engine.md R91, R102 to R106). -/

namespace Sys2Proof.Machine

/-- RD_CMD (41_protocol_engine.md R102). -/
def execRdCmd (s : State) : Result := hostRead .cmd s.cmd s

/-- The effect of a CMD write (41_protocol_engine.md R91). -/
def writeCmd (v : Word) (s : State) : State :=
  if s.ebusy then s.setErrBusy
  else if !legal v then s.setErrCmd
  else if !s.en then s.setErrCfg
  else if !s.txe || s.shActive || s.csAssert then s.setErrBusy
  else s.startCommand v

/-- WR_CMD (41_protocol_engine.md R91). -/
def execWrCmd (v : Word) (s : State) : Result := hostWrite .cmd v (writeCmd v) s

/-- RD_RDATA (41_protocol_engine.md R103). -/
def execRdRdata (s : State) : Result := hostRead .rdata s.rdata s

/-- The effect of an RDATA write: none (41_protocol_engine.md R104). -/
def writeRdata (s : State) : State := s

/-- WR_RDATA (41_protocol_engine.md R104). -/
def execWrRdata (v : Word) (s : State) : Result := hostWrite .rdata v writeRdata s

/-- RD_PRESS (41_protocol_engine.md R105). -/
def execRdPress (s : State) : Result := hostRead .press s.press s

/-- The effect of a PRESS write: none (41_protocol_engine.md R106). -/
def writePress (s : State) : State := s

/-- WR_PRESS (41_protocol_engine.md R106). -/
def execWrPress (v : Word) (s : State) : Result := hostWrite .press v writePress s

end Sys2Proof.Machine
end

