-- ==== Sys2Proof/Machine/SpiMaster.lean ====
section
/-! DEFINITION. The SPI master unit and the manual chip-select (40_spi_exchange.md): the accesses to CTRL,
STATUS, DR and CSCTL, and the shifter's two steps. -/

namespace Sys2Proof.Machine

/-- RD_CTRL (40_spi_exchange.md R78). -/
def execRdCtrl (s : State) : Result := hostRead .ctrl (s.ctrl.setWidth 32) s

/-- The effect of a CTRL write (40_spi_exchange.md R79). -/
def writeCtrl (v : Word) (s : State) : State :=
  let new := ctrlBits v
  if s.en then
    if new.getLsbD 6 then
      if cfgBits new = cfgBits s.ctrl then s else s.setErrCfg
    else if s.bsy then s.setErrBusy
    else { s with ctrl := new }
  else if new.getLsbD 6 then
    if cfgBits new = supportedCfg then { s with ctrl := new } else s.setErrCfg
  else { s with ctrl := new }

/-- WR_CTRL (40_spi_exchange.md R79). -/
def execWrCtrl (v : Word) (s : State) : Result := hostWrite .ctrl v (writeCtrl v) s

/-- RD_STATUS (40_spi_exchange.md R80). -/
def execRdStatus (s : State) : Result := hostRead .status s.statusWord s

/-- WR_STATUS (40_spi_exchange.md R81). -/
def execWrStatus (v : Word) (s : State) : Result := hostWrite .status v (State.clearSticky v) s

/-- RD_DR (40_spi_exchange.md R82): the only read with a side effect. -/
def execRdDr (s : State) : Result := hostRead .dr (s.rxbuf.setWidth 32) { s with rxne := false }

/-- The effect of a DR write (40_spi_exchange.md R83). -/
def writeDr (v : Word) (s : State) : State :=
  if !s.en then s.setErrCfg
  else if s.ebusy then s.setErrBusy
  else if !s.txe then s.setErrTxovw
  else { s with txbuf := drByte v, txe := false }

/-- WR_DR (40_spi_exchange.md R83). -/
def execWrDr (v : Word) (s : State) : Result := hostWrite .dr v (writeDr v) s

/-- RD_CSCTL (40_spi_exchange.md R84). -/
def execRdCsctl (s : State) : Result := hostRead .csctl s.csctlWord s

/-- The effect of a CSCTL write (40_spi_exchange.md R85). -/
def writeCsctl (v : Word) (s : State) : State :=
  if assertBit v = s.csAssert then s
  else if s.bsy then s.setErrBusy
  else s.driveCs (assertBit v) s.engCs

/-- WR_CSCTL (40_spi_exchange.md R85). -/
def execWrCsctl (v : Word) (s : State) : Result := hostWrite .csctl v (writeCsctl v) s

/-! ### The shifter -/

/-- SHIFT_LOAD is enabled (40_spi_exchange.md R86). -/
def shiftLoadEnabled (s : State) : Bool := s.clkOk && s.en && !s.txe && !s.shActive

/-- SHIFT_LOAD (40_spi_exchange.md R86); nothing while it is not enabled (log 16). -/
def shiftLoad (s : State) : State :=
  if shiftLoadEnabled s then { s with shift := s.txbuf, txe := true, shActive := true } else s

/-- SHIFT_DONE is enabled (40_spi_exchange.md R87). -/
def shiftDoneEnabled (s : State) : Bool := s.clkOk && s.en && s.shActive

/-- SHIFT_DONE (40_spi_exchange.md R87); nothing while it is not enabled (log 16). -/
def shiftDone (s : State) : State :=
  if shiftDoneEnabled s then
    let t := s.exchange .manual s.shift
    if s.rxne then { t with ovr := true, shActive := false }
    else { t with rxbuf := s.answer s.shift, rxne := true, shActive := false }
  else s

end Sys2Proof.Machine
end

