-- ==== Sys2Proof/Machine/Dispatch.lean ====
section
/-! DEFINITION. One arm per instruction. -/

namespace Sys2Proof.Machine

def exec (i : Instr) (s : State) : Host.Outcome State Fault Refusal :=
  match i with
  | .rdCtrl => Sys2Proof.Machine.execRdCtrl s
  | .wrCtrl v => Sys2Proof.Machine.execWrCtrl v s
  | .rdStatus => Sys2Proof.Machine.execRdStatus s
  | .wrStatus v => Sys2Proof.Machine.execWrStatus v s
  | .rdDr => Sys2Proof.Machine.execRdDr s
  | .wrDr v => Sys2Proof.Machine.execWrDr v s
  | .rdCsctl => Sys2Proof.Machine.execRdCsctl s
  | .wrCsctl v => Sys2Proof.Machine.execWrCsctl v s
  | .rdCmd => Sys2Proof.Machine.execRdCmd s
  | .wrCmd v => Sys2Proof.Machine.execWrCmd v s
  | .rdRdata => Sys2Proof.Machine.execRdRdata s
  | .wrRdata v => Sys2Proof.Machine.execWrRdata v s
  | .rdPress => Sys2Proof.Machine.execRdPress s
  | .wrPress v => Sys2Proof.Machine.execWrPress v s
  | .read1 a => Sys2Proof.Machine.execRead1 a s
  | .readn a n => Sys2Proof.Machine.execReadn a n s
  | .write a d => Sys2Proof.Machine.execWrite a d s
  | .init d => Sys2Proof.Machine.execInit d s
  | .readp => Sys2Proof.Machine.execReadp s

end Sys2Proof.Machine
end

