-- ==== Sys2Proof/Machine/Agents.lean ====
section
/-! DEFINITION. What each agent's turn does: HOST's access checks and fetch, SEQ's steps, the platform's
reset, and who takes the next step (00_scope.md R8, R10). -/

namespace Sys2Proof.Machine

/-! ### HOST -/

/-- The bus error of a descriptor that is no instruction (30_encoding.md R66; log 8). `illegalCommand`
is no answer of `decodeBus`. -/
def faultOfDecode : DecodeError → Fault
  | .misaligned => .busAlign
  | .unmapped => .busUnmapped
  | .illegalCommand => .busUnmapped

/-- One host access: the checks in the order of 60_exceptions.md R116 (clock, size, alignment, map), then
the instruction. -/
def hostAccess (a : Access) (s : State) : Result :=
  if !s.clkOk then .fault .busNoClock
  else if a.size ≠ 4 then .fault .busWidth
  else match decodeBus (descriptor a.isWrite a.off) a.value with
    | .error e => .fault (faultOfDecode e)
    | .ok i => exec i s

/-- The offset of a host address in SPIM's window, none outside it (20_memory.md R50). -/
def windowOffset (addr : Nat) : Option (BitVec 8) :=
  if Config.spimBase ≤ addr ∧ addr < Config.spimBase + 0x20 then
    some (BitVec.ofNat 8 (addr - Config.spimBase))
  else none

/-- MemRead or MemWrite at a host address (00_scope.md section 5, 20_memory.md R50; log 5). -/
def memAccess (isWrite : Bool) (addr size : Nat) (value : Word) (s : State) : Result :=
  match windowOffset addr with
  | some off => hostAccess ⟨isWrite, off, size, value⟩ s
  | none => .refused .notSpimAddress

/-- The condition of a POLL on the value just read (30_encoding.md R76). -/
def pollHolds (m v : Word) (s : State) : Bool :=
  match s.lastRead with
  | some x => x &&& m == v
  | none => false

/-- One iteration of a POLL: one host read; HOST goes on to `rest` once the condition holds (30_encoding.md
R76, log 20). -/
def pollTurn (r : Reg) (m v : Word) (rest : List HostOp) (s : State) : Result :=
  match hostAccess ⟨false, r.off, 4, 0⟩ s with
  | .next t => .next (if pollHolds m v t then { t with host := rest } else t)
  | .fault f => .fault f
  | .refused q => .refused q

/-- HOST's turn: its next operation; none left, nothing happens. -/
def hostTurn (s : State) : Result :=
  match s.host with
  | [] => .next s
  | .access a :: rest => hostAccess a { s with host := rest }
  | .mem isWrite addr size value :: rest => memAccess isWrite addr size value { s with host := rest }
  | .poll r m v :: rest => pollTurn r m v rest s

/-! ### SEQ -/

/-- The engine's turn: it fetches the running command from ENG_CMD and executes one step of it (log 12). -/
def engineTurn (s : State) : Result :=
  match decodeCmd s.engCmd with
  | .ok i => exec i s
  | .error _ => .next s

/-! ### Whose turn -/

/-- Who goes when the schedule names nobody: an enabled SEQ step, else HOST (log 1, log 17). -/
def defaultAgent (s : State) : Agent :=
  if shiftDoneEnabled s then .shiftDone
  else if shiftLoadEnabled s then .shiftLoad
  else if engineEnabled s then .engine
  else .host

/-- The agent that takes the next step. -/
def nextAgent (s : State) : Agent :=
  match s.sched with
  | g :: _ => g
  | [] => defaultAgent s

/-- The state in which the next agent acts: its turn is used up and the run has started. -/
def State.beginStep (s : State) : State := { s with sched := s.sched.tail, started := true }

/-- The reset input: admitted only as the first step of a run (70_reset_and_hazards.md R125, log 15). -/
def resetTurn (alreadyStarted : Bool) (s : State) : Result :=
  if alreadyStarted then .refused .resetAfterFirstStep else .next s.applyReset

/-- One agent's turn; `alreadyStarted` says whether a step was taken before this one. -/
def takeTurn (g : Agent) (alreadyStarted : Bool) (s : State) : Result :=
  match g with
  | .host => hostTurn s
  | .shiftLoad => .next (shiftLoad s)
  | .shiftDone => .next (shiftDone s)
  | .engine => engineTurn s
  | .rst => resetTurn alreadyStarted s

/-! ### Placing an instruction to be fetched (log 2) -/

/-- Put an encoded instruction where it is fetched next: an access in front of HOST's operations with the
next turn HOST's, a command word in the engine as acceptance leaves it (41_protocol_engine.md R91) with
the next turn the engine's. -/
def State.placeEncoded (s : State) : Encoded → State
  | .bus d v =>
    { s with
      sched := .host :: s.sched
      host := .access ⟨descriptorIsWrite d, descriptorOff d, 4, v⟩ :: s.host }
  | .cmd w => { s.startCommand w with sched := .engine :: s.sched }

end Sys2Proof.Machine
end

