-- ==== Sys2Proof/Machine/Step.lean ====
section
/-! DEFINITION. One step of a run (00_scope.md R10): the next agent's turn. -/

namespace Sys2Proof.Machine

/-- One step. -/
def step (s : State) : Host.Outcome State Fault Refusal :=
  takeTurn (nextAgent s) s.started s.beginStep

/-- `s` with the instruction of a table word placed where `step` fetches next (log 2, log 21). -/
def State.withFetchWord (s : State) (nbits w : Nat) : State :=
  match encodedOfTable nbits w with
  | some e => s.placeEncoded e
  | none => s

end Sys2Proof.Machine
end

