-- ==== Sys2Proof/Machine/Wire.lean ====
section
/-! DEFINITION. The bit level of one byte exchange (40_spi_exchange.md R88): 8 SCK cycles in mode 3, most
significant bit first. A refinement that no rule reads: `State.exchange` is one atomic step (log 13). -/

namespace Sys2Proof.Machine

/-- One SCK edge and the data line that matters at it. -/
inductive WireEdge where
  /-- SCK falls and SPIM drives `mosi`. -/
  | fall (mosi : Bool)
  /-- SCK rises; SPIM captures `miso`, the SLAVE captures `mosi`. -/
  | rise (miso : Bool)
deriving DecidableEq, Repr

/-- The lines and the two shift registers during an exchange. -/
structure WireState where
  sck : Bool
  mosi : Bool
  /-- What SPIM has captured from `miso`. -/
  received : Byte
  /-- What the SLAVE has captured from `mosi`. -/
  slaveReceived : Byte
deriving DecidableEq, Repr

/-- A captured bit enters a shift register at its low end. -/
def shiftIn (reg : Byte) (b : Bool) : Byte := reg <<< 1 ||| (BitVec.ofBool b).setWidth 8

/-- The effect of one edge. -/
def wireStep (w : WireState) : WireEdge → WireState
  | .fall b => { w with sck := false, mosi := b }
  | .rise b =>
    { w with
      sck := true
      received := shiftIn w.received b
      slaveReceived := shiftIn w.slaveReceived w.mosi }

/-- The edges of the exchange of `t` against `r`: for i = 0..7, SCK falls with `t[7-i]` on `mosi`, then
rises with `r[7-i]` on `miso` (R88; bit order 20_memory.md R61). -/
def wireEdges (t r : Byte) : List WireEdge :=
  (List.range 8).flatMap fun i => [.fall (t.getLsbD (7 - i)), .rise (r.getLsbD (7 - i))]

/-- The lines after the edges of an exchange. -/
def wireExchange (t r : Byte) (w : WireState) : WireState := (wireEdges t r).foldl wireStep w

end Sys2Proof.Machine
end

