-- ==== Sys2Proof/Safety.lean ====
section
/-! DEFINITION. The terms claims use: what a run without errors is, the machine's invariant, the framing
of chip-select in the event history, and the wire trace of a command. -/

namespace Sys2Proof.Machine

/-- No sticky error bit is set (92_eei_decisions.md D43). -/
def State.noErrors (s : State) : Bool :=
  !s.ovr && !s.errCmd && !s.errBusy && !s.errCfg && !s.errTxovw

/-- Read the chip-select events of a history that starts at level `l` of `cs_n`: the level at its end, or
`none` if a CS event does not change the level or an exchange is not recorded at the level it was made at
(10_state.md R45). -/
def csTrace (l : Bool) : List Event → Option Bool
  | [] => some l
  | .cs b :: es => if b = l then none else csTrace b es
  | .xfer c _ _ _ :: es => if c = l then csTrace l es else none
  | .hw _ _ :: es => csTrace l es
  | .hr _ _ :: es => csTrace l es

/-- The engine's chip-select request after some micro-operations from an idle engine. -/
def csAfter (ops : List MicroOp) : Bool :=
  ops.foldl (fun cs op => match op with
    | .csa => true
    | .csd => false
    | .xs _ => cs
    | .xr _ _ => cs
    | .fin => cs) false

/-- What holds of SPIM after every step from reset. -/
structure Invariant (s : State) : Prop where
  /-- EN = 1 only in the supported configuration (10_state.md R16, R21). -/
  enabledCfg : s.en = true → s.ctrl = 0x35F
  /-- EN = 0 implies BSY = 0 (40_spi_exchange.md R79). -/
  disabledIdle : s.en = false → s.bsy = false
  /-- While a command runs there is no manual byte and no manual select (41_protocol_engine.md R107). -/
  busyExclusive : s.ebusy = true →
    s.txe = true ∧ s.shActive = false ∧ s.csAssert = false ∧ s.done = false
  /-- While a command runs the engine stands inside its micro-program (41_protocol_engine.md R91, R92). -/
  running : s.ebusy = true →
    legal s.engCmd = true ∧ s.cmd = s.engCmd ∧ s.engOps = expand s.engCmd ∧
      s.engIdx < s.engOps.length ∧ s.engCs = csAfter (s.engOps.take s.engIdx)
  /-- Otherwise the engine is idle (10_state.md R42, 41_protocol_engine.md R101). -/
  idle : s.ebusy = false → s.engOps = [] ∧ s.engIdx = 0 ∧ s.engCs = false
  /-- RDATA bits 31:24 are 0 (10_state.md R37). -/
  rdataBytes : s.rdata.toNat < 16777216
  /-- PRESS is in 0..4095 (42_sample_assembly.md R110). -/
  pressRange : s.press.toNat ≤ 4095
  /-- The history's chip-select events lead to the present level of `cs_n` (10_state.md R43, R45). -/
  framed : csTrace true s.history = some s.csN

/-! ### The wire trace of a command -/

/-- An event on the SPI pins. -/
def Event.onWire : Event → Bool
  | .cs _ => true
  | .xfer _ _ _ _ => true
  | .hw _ _ => false
  | .hr _ _ => false

/-- The pin events of a history. -/
def wireHistory (h : List Event) : List Event := h.filter Event.onWire

/-- How many bytes some micro-operations exchange. -/
def exchangeCount : List MicroOp → Nat
  | [] => 0
  | .xs _ :: ops => exchangeCount ops + 1
  | .xr _ _ :: ops => exchangeCount ops + 1
  | .csa :: ops => exchangeCount ops
  | .csd :: ops => exchangeCount ops
  | .fin :: ops => exchangeCount ops

/-- The pin events of some micro-operations when the SLAVE answers `rs`. -/
def traceOf : List MicroOp → List Byte → List Event
  | [], _ => []
  | .csa :: ops, rs => .cs false :: traceOf ops rs
  | .xs t :: ops, rs => .xfer false t (rs.headD 0) .engine :: traceOf ops rs.tail
  | .xr t _ :: ops, rs => .xfer false t (rs.headD 0) .engine :: traceOf ops rs.tail
  | .csd :: ops, rs => .cs true :: traceOf ops rs
  | .fin :: ops, rs => traceOf ops rs

/-- The byte some micro-operations leave in ENG_RX[k], which holds `b` before them, when the SLAVE
answers `rs`. -/
def receivedAt (k : Fin 3) (b : Byte) : List MicroOp → List Byte → Byte
  | [], _ => b
  | .csa :: ops, rs => receivedAt k b ops rs
  | .xs _ :: ops, rs => receivedAt k b ops rs.tail
  | .xr _ j :: ops, rs => receivedAt k (if j = k then rs.headD 0 else b) ops rs.tail
  | .csd :: ops, rs => receivedAt k b ops rs
  | .fin :: ops, rs => receivedAt k b ops rs

/-- The pin events of the running command, from its acceptance on, are exactly those of the
micro-operations it has run, and ENG_RX holds the bytes received in them (41_protocol_engine.md R107). -/
def CommandOnWire (s : State) : Prop :=
  s.ebusy = true → ∃ (before : List Event) (rs : List Byte),
    rs.length = exchangeCount (s.engOps.take s.engIdx) ∧
    wireHistory s.history = before ++ traceOf (s.engOps.take s.engIdx) rs ∧
    s.engRx0 = receivedAt 0 0 (s.engOps.take s.engIdx) rs ∧
    s.engRx1 = receivedAt 1 0 (s.engOps.take s.engIdx) rs ∧
    s.engRx2 = receivedAt 2 0 (s.engOps.take s.engIdx) rs

end Sys2Proof.Machine
end

