-- ==== Sys2Proof/Certificates/Slice0/Obligations.lean ====
section
/-! DEFINITION. The statements for the provers. -/

open Sys2Proof Sys2Proof.Machine

/-! ### Encodings -/

/-- 30_encoding.md R66: the fourteen descriptors, and no other, are instructions; an access with any other
raises a bus error. -/
def Obligations.BusDescriptorsOfTheMap : Prop :=
  ∀ (d : BitVec 9) (v : Word),
    decodeBus 0x000 v = .ok .rdCtrl ∧ decodeBus 0x100 v = .ok (.wrCtrl v) ∧
    decodeBus 0x004 v = .ok .rdStatus ∧ decodeBus 0x104 v = .ok (.wrStatus v) ∧
    decodeBus 0x008 v = .ok .rdDr ∧ decodeBus 0x108 v = .ok (.wrDr v) ∧
    decodeBus 0x00C v = .ok .rdCsctl ∧ decodeBus 0x10C v = .ok (.wrCsctl v) ∧
    decodeBus 0x010 v = .ok .rdCmd ∧ decodeBus 0x110 v = .ok (.wrCmd v) ∧
    decodeBus 0x014 v = .ok .rdRdata ∧ decodeBus 0x114 v = .ok (.wrRdata v) ∧
    decodeBus 0x018 v = .ok .rdPress ∧ decodeBus 0x118 v = .ok (.wrPress v) ∧
    (d ∉ [0x000, 0x100, 0x004, 0x104, 0x008, 0x108, 0x00C, 0x10C, 0x010, 0x110, 0x014, 0x114,
        0x018, 0x118] →
      (∃ e, decodeBus d v = .error e) ∧
      ∀ (a : Access) (s : State), descriptor a.isWrite a.off = d → ∃ f, hostAccess a s = .fault f)

/-- 30_encoding.md R73: when a command word is legal, in numbers, and what a CMD write of an illegal one
does while the engine is idle. -/
def Obligations.LegalCommandWords : Prop :=
  (∀ (w : Word) (s : State), legal w = false → s.clkOk = true → s.ebusy = false →
    exec (.wrCmd w) s = .next { s with
      errCmd := true, history := s.history ++ [.hw 0x10 w] }) ∧
  ∀ w : Word, legal w = true ↔
    w.toNat / 64 % 4 = 0 ∧ w.toNat / 16384 % 4 = 0 ∧ w.toNat / 16777216 = 0 ∧
    ((w.toNat % 16 = 1 ∧ w.toNat / 16 % 4 = 0 ∧ w.toNat / 65536 % 256 = 0) ∨
     (w.toNat % 16 = 2 ∧ w.toNat / 16 % 4 ≠ 0 ∧ w.toNat / 65536 % 256 = 0) ∨
     (w.toNat % 16 = 3 ∧ w.toNat / 16 % 4 = 0) ∨
     (w.toNat % 16 = 4 ∧ w.toNat / 16 % 4 = 0 ∧ w.toNat / 256 % 64 = 0) ∨
     (w.toNat % 16 = 5 ∧ w.toNat / 16 % 4 = 0 ∧ w.toNat / 256 % 64 = 0 ∧
       w.toNat / 65536 % 256 = 0))

/-- 30_encoding.md R75: a word decodes iff it is legal, and a legal word falls under exactly one row of
the opcode table, its own instruction's. -/
def Obligations.LegalWordHasOneRow : Prop :=
  ∀ w : Word,
    (legal w = false → decodeCmd w = .error .illegalCommand) ∧
    (legal w = true → ∃ i, decodeCmd w = .ok i ∧ i.wellFormed = true ∧
      commandRows.filter (fun row => row.coversWord w) = [opcodeRow i])

/-- 30_encoding.md R74: the framing bytes as ORs and as concatenations, and the three fixed ones. -/
def Obligations.FramingBytes : Prop :=
  (∀ a : SensorAddr,
    readFrame a = 0x80 ||| a.setWidth 8 ∧ incFrame a = 0xC0 ||| a.setWidth 8 ∧
    writeFrame a = a.setWidth 8 ∧
    readFrame a = 0b1#1 ++ 0b0#1 ++ a ∧ incFrame a = 0b1#1 ++ 0b1#1 ++ a ∧
    writeFrame a = 0b0#1 ++ 0b0#1 ++ a) ∧
  readFrame 0x0F = 0x8F ∧ writeFrame 0x20 = 0x20 ∧ incFrame 0x28 = 0xE8

/-- Words written out from the encodings of 30_encoding.md R66, R67 decode to the instructions they stand
for (95_test_vectors.md section 3.6). -/
def Obligations.SampleWordsDecode : Prop :=
  decodeBus 0b100001000 0x0000008F = .ok (.wrDr 0x8F) ∧
  decodeBus 0b000011000 0 = .ok .rdPress ∧
  decodeCmd 0b00000000000000000000111100000001 = .ok (.read1 0x0F) ∧
  decodeCmd 0b00000000000000000010100000110010 = .ok (.readn 0x28 3) ∧
  decodeCmd 0b00000000100100000010000000000011 = .ok (.write 0x20 0x90) ∧
  decodeCmd 0b00000000100100000000000000000100 = .ok (.init 0x90) ∧
  decodeCmd 0b00000000000000000000000000000101 = .ok .readp

/-- Every well-formed instruction decodes from its encoding, whatever its operands. -/
def Obligations.DecodeEncode : Prop :=
  ∀ i : Instr, i.wellFormed = true → decode (encode i) = .ok i

/-- What decodes is what the encoder writes, up to the value a read does not carry. -/
def Obligations.EncodeDecode : Prop :=
  (∀ (w : Word) (i : Instr), decodeCmd w = .ok i → i.wellFormed = true ∧ encode i = .cmd w) ∧
  (∀ (d : BitVec 9) (v : Word) (i : Instr), decodeBus d v = .ok i →
    i.wellFormed = true ∧ encode i = .bus d (if d.getLsbD 8 then v else 0))

/-! ### Sample assembly and identification -/

/-- 42_sample_assembly.md R108. -/
def Obligations.AssembleIsUnsignedSum : Prop :=
  ∀ low mid high : Byte,
    (assemble low mid high).toNat = high.toNat * 65536 + mid.toNat * 256 + low.toNat ∧
    assemble low mid high =
      (high.setWidth 32 <<< 16) ||| (mid.setWidth 32 <<< 8) ||| low.setWidth 32 ∧
    (assemble low mid high).toNat ≤ 0xFFFFFF ∧ 0 ≤ (assemble low mid high).toInt ∧
    assemble 0x00 0x00 0x01 = 0x00010000

/-- 42_sample_assembly.md R109: Convert copies bit 31 into the vacated bits and is the floor division by
4096 of the signed value; of an assembled value it is the logical shift and has no bit above 11. -/
def Obligations.ConvertDividesBy4096 : Prop :=
  ∀ raw : Word,
    (∀ k, k < 32 → (convert raw).getLsbD k = raw.getLsbD (if k < 20 then k + 12 else 31)) ∧
    (convert raw).toInt = raw.toInt / 4096 ∧
    (raw.getLsbD 31 = false →
      convert raw = raw >>> 12 ∧ (convert raw).toNat = raw.toNat / 4096) ∧
    (∀ low mid high : Byte, raw = assemble low mid high →
      convert raw = raw >>> 12 ∧ ∀ k, 12 ≤ k → (convert raw).getLsbD k = false) ∧
    convert 0x00FFFFFF = 0x00000FFF

/-- 42_sample_assembly.md R110: PRESS is 0 to 4095 for every three bytes, truncated. -/
def Obligations.PressureRange : Prop :=
  ∀ low mid high : Byte,
    0 ≤ (convert (assemble low mid high)).toInt ∧ (convert (assemble low mid high)).toInt ≤ 4095 ∧
    (convert (assemble low mid high)).toNat =
      (high.toNat * 65536 + mid.toNat * 256 + low.toNat) / 4096 ∧
    convert 0x003F5000 = 1013 ∧ convert 0x003F5FFF = 1013

/-- 42_sample_assembly.md R111, and INIT's FIN writes the result to IDOK. -/
def Obligations.IdCheckOnlyExpectedId : Prop :=
  (∀ b : Byte, idCheck b = true ↔ b.toNat = 189) ∧ idCheck 0xBD = true ∧ idCheck 0x3D = false ∧
  (∀ (d : Byte) (s : State), s.clkOk = true → s.ebusy = true → s.engCmd = initWord d →
    s.currentOp = some .fin →
    ∃ t, exec (.init d) s = .next t ∧ t.idok = idCheck s.engRx0)

/-! ### Host accesses: the checks -/

/-- 20_memory.md R51, R52, R53 with the clock on: size, alignment, map, in this order, and no state; an
access that passes is its instruction's and never raises a bus error (60_exceptions.md R116). -/
def Obligations.AccessChecks : Prop :=
  ∀ (a : Access) (s : State), s.clkOk = true →
    (a.size ≠ 4 → hostAccess a s = .fault .busWidth) ∧
    (a.size = 4 → a.off.toNat % 4 ≠ 0 → hostAccess a s = .fault .busAlign) ∧
    (a.size = 4 → a.off = 0x1C → hostAccess a s = .fault .busUnmapped) ∧
    (a.size = 4 → ∀ r : Reg, a.off = r.off →
      hostAccess a s = exec (if a.isWrite then r.write a.value else r.read) s ∧
      ∃ t, hostAccess a s = .next t)

/-- 00_scope.md R6: without the clock every host access raises a bus error and no internal step is
taken; and `clk_ok` is constant over a run. -/
def Obligations.NoClockNoAccessNoStep : Prop :=
  ∀ s : State,
    (s.clkOk = false →
      (∀ a : Access, hostAccess a s = .fault .busNoClock) ∧
      (∀ (r : Reg) (v : Word), exec r.read s = .fault .busNoClock ∧
        exec (r.write v) s = .fault .busNoClock) ∧
      shiftLoad s = s ∧ shiftDone s = s ∧ engineTurn s = .next s ∧
      shiftLoadEnabled s = false ∧ shiftDoneEnabled s = false ∧ engineEnabled s = false) ∧
    (∀ t, step s = .next t → t.clkOk = s.clkOk)

/-- 20_memory.md R50: host addresses SPIM_BASE to SPIM_BASE + 0x1F are SPIM's, decoded by their offset.
That any other is refused is the model's choice (log 5). -/
def Obligations.WindowIsThirtyTwoBytes : Prop :=
  ∀ (isWrite : Bool) (addr size : Nat) (v : Word) (s : State),
    Config.spimBase % 32 = 0 ∧
    (∀ off : Nat, off < 0x20 → addr = Config.spimBase + off →
      memAccess isWrite addr size v s = hostAccess ⟨isWrite, BitVec.ofNat 8 off, size, v⟩ s) ∧
    (addr < Config.spimBase ∨ Config.spimBase + 0x20 ≤ addr →
      memAccess isWrite addr size v s = .refused .notSpimAddress)

/-! ### CTRL -/

/-- 40_spi_exchange.md R78. -/
def Obligations.ReadCtrl : Prop :=
  ∀ (s : State) (v : Word), s.clkOk = true →
    decodeBus 0x000 v = .ok .rdCtrl ∧
    exec .rdCtrl s = .next { s with history := s.history ++ [.hr 0x00 (s.ctrl.setWidth 32)] } ∧
    (∀ k, 10 ≤ k → (s.ctrl.setWidth 32).getLsbD k = false) ∧
    (s.en = false → v.getLsbD 6 = true → v &&& 0x000003BF ≠ 0x0000031F →
      ∃ t, exec (.wrCtrl v) s = .next t ∧ t.ctrl = s.ctrl) ∧
    (s.en = false → ∃ t, exec (.wrCtrl 0x0000035F) s = .next t ∧
      exec .rdCtrl t = .next { t with history := t.history ++ [.hr 0x00 0x0000035F] })

/-- 40_spi_exchange.md R79, every branch of its pseudocode. -/
def Obligations.WriteCtrl : Prop :=
  ∀ (s h : State) (v : Word), s.clkOk = true →
    h = { s with history := s.history ++ [.hw 0x00 v] } →
    decodeBus 0x100 v = .ok (.wrCtrl v) ∧
    (s.en = false → v.getLsbD 6 = false →
      exec (.wrCtrl v) s = .next { h with ctrl := v.setWidth 10 }) ∧
    (s.en = false → v.getLsbD 6 = true → v &&& 0x000003BF = 0x0000031F →
      exec (.wrCtrl v) s = .next { h with ctrl := 0x35F }) ∧
    (s.en = false → v.getLsbD 6 = true → v &&& 0x000003BF ≠ 0x0000031F →
      exec (.wrCtrl v) s = .next { h with errCfg := true }) ∧
    (s.en = true → v.getLsbD 6 = true → v &&& 0x000003FF = s.ctrl.setWidth 32 →
      exec (.wrCtrl v) s = .next h) ∧
    (s.en = true → v.getLsbD 6 = true → v &&& 0x000003FF ≠ s.ctrl.setWidth 32 →
      exec (.wrCtrl v) s = .next { h with errCfg := true }) ∧
    (s.en = true → v.getLsbD 6 = false → s.bsy = true →
      exec (.wrCtrl v) s = .next { h with errBusy := true }) ∧
    (s.en = true → v.getLsbD 6 = false → s.bsy = false →
      exec (.wrCtrl v) s = .next { h with ctrl := v.setWidth 10 }) ∧
    ((s.en = false → s.bsy = false) →
      ∃ t, exec (.wrCtrl v) s = .next t ∧ (t.en = false → t.bsy = false))

/-- 10_state.md R16, 70_reset_and_hazards.md R127: EN rises only by HOST's turn, and then CTRL is the
supported configuration. -/
def Obligations.EnableOnlyWhenSupported : Prop :=
  ∀ s t : State, step s = .next t → s.en = false → t.en = true →
    nextAgent s = .host ∧ t.ctrl = 0x35F ∧ t.errCfg = s.errCfg

/-! ### STATUS -/

/-- 40_spi_exchange.md R80 with BSY of 10_state.md R25, bit by bit. -/
def Obligations.ReadStatus : Prop :=
  ∀ s : State, s.clkOk = true →
    decodeBus 0x004 0 = .ok .rdStatus ∧
    (∃ v : Word, exec .rdStatus s = .next { s with history := s.history ++ [.hr 0x04 v] } ∧
      v.getLsbD 0 = s.rxne ∧ v.getLsbD 1 = s.txe ∧ v.getLsbD 6 = s.ovr ∧
      v.getLsbD 7 = (!s.txe || s.shActive || s.ebusy) ∧
      v.getLsbD 16 = s.ebusy ∧ v.getLsbD 17 = s.done ∧ v.getLsbD 18 = s.idok ∧
      v.getLsbD 24 = s.errCmd ∧ v.getLsbD 25 = s.errBusy ∧ v.getLsbD 26 = s.errCfg ∧
      v.getLsbD 27 = s.errTxovw ∧
      (∀ k, k ∉ [0, 1, 6, 7, 16, 17, 18, 24, 25, 26, 27] → v.getLsbD k = false)) ∧
    exec .rdStatus State.reset = .next { State.reset with history := [.hr 0x04 0x00000002] }

/-- 40_spi_exchange.md R81. -/
def Obligations.WriteStatus : Prop :=
  ∀ (s : State) (v : Word), s.clkOk = true →
    decodeBus 0x104 v = .ok (.wrStatus v) ∧
    exec (.wrStatus v) s = .next { s with
      history := s.history ++ [.hw 0x04 v]
      ovr := if v.getLsbD 6 then false else s.ovr
      done := if v.getLsbD 17 then false else s.done
      errCmd := if v.getLsbD 24 then false else s.errCmd
      errBusy := if v.getLsbD 25 then false else s.errBusy
      errCfg := if v.getLsbD 26 then false else s.errCfg
      errTxovw := if v.getLsbD 27 then false else s.errTxovw } ∧
    (s.statusWord = 0x02020002 → ∃ t, exec (.wrStatus 0xFFFFFFFF) s = .next t ∧
      t.statusWord = 0x00000002)

/-- 60_exceptions.md R118: a sticky bit is cleared only by a STATUS write with a 1 in that bit (DONE also
by the acceptance of a command), or by reset. -/
def Obligations.StickyBitsStay : Prop :=
  (∀ (i : Instr) (s t : State), exec i s = .next t →
    (s.ovr = true → t.ovr = false → ∃ v, i = .wrStatus v ∧ v.getLsbD 6 = true) ∧
    (s.done = true → t.done = false →
      (∃ v, i = .wrStatus v ∧ v.getLsbD 17 = true) ∨ (∃ v, i = .wrCmd v ∧ t.ebusy = true)) ∧
    (s.errCmd = true → t.errCmd = false → ∃ v, i = .wrStatus v ∧ v.getLsbD 24 = true) ∧
    (s.errBusy = true → t.errBusy = false → ∃ v, i = .wrStatus v ∧ v.getLsbD 25 = true) ∧
    (s.errCfg = true → t.errCfg = false → ∃ v, i = .wrStatus v ∧ v.getLsbD 26 = true) ∧
    (s.errTxovw = true → t.errTxovw = false → ∃ v, i = .wrStatus v ∧ v.getLsbD 27 = true)) ∧
  (∀ s t : State, step s = .next t → nextAgent s ≠ .rst → nextAgent s ≠ .host →
    (s.ovr = true → t.ovr = true) ∧ (s.done = true → t.done = true) ∧ t.errCmd = s.errCmd ∧
    t.errBusy = s.errBusy ∧ t.errCfg = s.errCfg ∧ t.errTxovw = s.errTxovw)

/-! ### DR -/

/-- 40_spi_exchange.md R82. -/
def Obligations.ReadDr : Prop :=
  ∀ (s : State) (v : Word), s.clkOk = true →
    decodeBus 0x008 v = .ok .rdDr ∧
    exec .rdDr s = .next { s with
      rxne := false
      history := s.history ++ [.hr 0x08 (s.rxbuf.setWidth 32)] } ∧
    (s.rxbuf = 0xBD → ∃ t, exec .rdDr s = .next t ∧ t.lastRead = some 0x000000BD ∧ t.rxne = false)

/-- 40_spi_exchange.md R83: the checks in their order. -/
def Obligations.WriteDr : Prop :=
  ∀ (s h : State) (v : Word), s.clkOk = true →
    h = { s with history := s.history ++ [.hw 0x08 v] } →
    decodeBus 0x108 v = .ok (.wrDr v) ∧
    (s.en = false → exec (.wrDr v) s = .next { h with errCfg := true }) ∧
    (s.en = true → s.ebusy = true → exec (.wrDr v) s = .next { h with errBusy := true }) ∧
    (s.en = true → s.ebusy = false → s.txe = false →
      exec (.wrDr v) s = .next { h with errTxovw := true }) ∧
    (s.en = true → s.ebusy = false → s.txe = true →
      exec (.wrDr v) s = .next { h with txbuf := v.setWidth 8, txe := false })

/-! ### CSCTL -/

/-- 40_spi_exchange.md R84, with `cs_n` of 10_state.md R43. -/
def Obligations.ReadCsctl : Prop :=
  ∀ s : State, s.clkOk = true →
    decodeBus 0x00C 0 = .ok .rdCsctl ∧
    (∃ v : Word, exec .rdCsctl s = .next { s with history := s.history ++ [.hr 0x0C v] } ∧
      v.getLsbD 0 = s.csAssert ∧ v.getLsbD 1 = !(s.csAssert || s.engCs) ∧
      (∀ k, 2 ≤ k → v.getLsbD k = false) ∧
      (s.csAssert = false → s.engCs = true → v = 0x00000000)) ∧
    exec .rdCsctl State.reset = .next { State.reset with history := [.hr 0x0C 0x00000002] } ∧
    (∃ t, exec (.wrCsctl 0x1) State.reset = .next t ∧
      exec .rdCsctl t = .next { t with history := t.history ++ [.hr 0x0C 0x00000001] })

/-- 40_spi_exchange.md R85: the CS event is stated as the pins' history. -/
def Obligations.WriteCsctl : Prop :=
  ∀ (s h : State) (v : Word), s.clkOk = true →
    h = { s with history := s.history ++ [.hw 0x0C v] } →
    decodeBus 0x10C v = .ok (.wrCsctl v) ∧
    (v.getLsbD 0 = s.csAssert → exec (.wrCsctl v) s = .next h) ∧
    (v.getLsbD 0 ≠ s.csAssert → s.bsy = true →
      exec (.wrCsctl v) s = .next { h with errBusy := true }) ∧
    (v.getLsbD 0 ≠ s.csAssert → s.bsy = false → s.engCs = false →
      ∃ t, exec (.wrCsctl v) s = .next t ∧
        t = { s with csAssert := v.getLsbD 0, history := t.history } ∧
        wireHistory t.history = wireHistory s.history ++ [.cs (!v.getLsbD 0)]) ∧
    (v.getLsbD 0 ≠ s.csAssert → s.bsy = false → s.engCs = true →
      exec (.wrCsctl v) s = .next { h with csAssert := v.getLsbD 0 })

/-! ### CMD, RDATA, PRESS -/

/-- 41_protocol_engine.md R91: refusals in the order of the checks, and acceptance. -/
def Obligations.WriteCmd : Prop :=
  ∀ (s h : State) (v : Word), s.clkOk = true →
    h = { s with history := s.history ++ [.hw 0x10 v] } →
    decodeBus 0x110 v = .ok (.wrCmd v) ∧
    (s.ebusy = true → exec (.wrCmd v) s = .next { h with errBusy := true }) ∧
    (s.ebusy = false → legal v = false → exec (.wrCmd v) s = .next { h with errCmd := true }) ∧
    (s.ebusy = false → legal v = true → s.en = false →
      exec (.wrCmd v) s = .next { h with errCfg := true }) ∧
    (s.ebusy = false → legal v = true → s.en = true →
      s.txe = false ∨ s.shActive = true ∨ s.csAssert = true →
      exec (.wrCmd v) s = .next { h with errBusy := true }) ∧
    (s.ebusy = false → legal v = true → s.en = true → s.txe = true → s.shActive = false →
      s.csAssert = false →
      exec (.wrCmd v) s = .next { h with
        cmd := v, engCmd := v, engOps := expand v, engIdx := 0
        engRx0 := 0x00, engRx1 := 0x00, engRx2 := 0x00, done := false, ebusy := true })

/-- 41_protocol_engine.md R102: the last accepted word. -/
def Obligations.ReadCmd : Prop :=
  (∀ (s : State) (v : Word), s.clkOk = true →
    decodeBus 0x010 v = .ok .rdCmd ∧
    exec .rdCmd s = .next { s with history := s.history ++ [.hr 0x10 s.cmd] }) ∧
  State.reset.cmd = 0x00000000 ∧
  (∀ s t : State, step s = .next t → nextAgent s ≠ .rst → t.cmd ≠ s.cmd →
    nextAgent s = .host ∧ legal t.cmd = true ∧ t.engCmd = t.cmd ∧ t.engOps = expand t.cmd ∧
    s.ebusy = false ∧ t.ebusy = true)

/-- 41_protocol_engine.md R103, R105: RDATA and PRESS are returned and nothing changes. -/
def Obligations.ReadResults : Prop :=
  ∀ (s : State) (v : Word), s.clkOk = true →
    decodeBus 0x014 v = .ok .rdRdata ∧ decodeBus 0x018 v = .ok .rdPress ∧
    exec .rdRdata s = .next { s with history := s.history ++ [.hr 0x14 s.rdata] } ∧
    exec .rdPress s = .next { s with history := s.history ++ [.hr 0x18 s.press] }

/-- 41_protocol_engine.md R104, R106: the writes are ignored and set no flag; the HW event is the host's
write itself (10_state.md R45). -/
def Obligations.WriteResultsIgnored : Prop :=
  ∀ (s : State) (v : Word), s.clkOk = true →
    decodeBus 0x114 v = .ok (.wrRdata v) ∧ decodeBus 0x118 v = .ok (.wrPress v) ∧
    exec (.wrRdata v) s = .next { s with history := s.history ++ [.hw 0x14 v] } ∧
    exec (.wrPress v) s = .next { s with history := s.history ++ [.hw 0x18 v] }

/-- 20_memory.md R55: a DR read is the only read with a side effect; the others may be repeated with the
same result, and a second DR read returns the same byte. -/
def Obligations.ReadSideEffects : Prop :=
  (∀ (r : Reg) (s : State), s.clkOk = true → r ≠ .dr →
    ∃ (v : Word) (t : State), t = { s with history := s.history ++ [.hr r.off v] } ∧
      exec r.read s = .next t ∧
      exec r.read t = .next { t with history := t.history ++ [.hr r.off v] }) ∧
  (∀ s : State, s.clkOk = true →
    ∃ (v : Word) (t : State),
      t = { s with rxne := false, history := s.history ++ [.hr 0x08 v] } ∧
      exec .rdDr s = .next t ∧
      exec .rdDr t = .next { t with history := t.history ++ [.hr 0x08 v] })

/-- 20_memory.md R56: a CTRL or CSCTL write of the value the register reads as changes nothing but the
history. -/
def Obligations.RewriteChangesNothing : Prop :=
  ∀ s : State, s.clkOk = true →
    exec (.wrCtrl (s.ctrl.setWidth 32)) s =
      .next { s with history := s.history ++ [.hw 0x00 (s.ctrl.setWidth 32)] } ∧
    exec (.wrCsctl s.csctlWord) s =
      .next { s with history := s.history ++ [.hw 0x0C s.csctlWord] }

/-! ### The shifter and the wire -/

/-- 40_spi_exchange.md R86, as a step: when it is enabled and what it does; never while EBUSY = 1. -/
def Obligations.ShiftLoadStep : Prop :=
  ∀ (s : State) (rest : List Agent), s.sched = .shiftLoad :: rest →
    (shiftLoadEnabled s = true ↔
      s.clkOk = true ∧ s.en = true ∧ s.txe = false ∧ s.shActive = false) ∧
    (shiftLoadEnabled s = true → step s = .next { s with
      started := true, sched := rest, shift := s.txbuf, txe := true, shActive := true }) ∧
    (Invariant s → s.ebusy = true → shiftLoadEnabled s = false)

/-- 40_spi_exchange.md R87, as a step: RXNE or OVR, never both, and with OVR the received byte is lost. The
SLAVE's byte is `s.answer s.shift` (log 3). -/
def Obligations.ShiftDoneStep : Prop :=
  ∀ (s b : State) (rest : List Agent), s.sched = .shiftDone :: rest →
    b = { s with
      started := true, sched := rest, shActive := false, misoFeed := s.misoFeed.tail
      history := s.history ++
        [.xfer (!(s.csAssert || s.engCs)) s.shift (s.answer s.shift) .manual] } →
    (shiftDoneEnabled s = true ↔ s.clkOk = true ∧ s.en = true ∧ s.shActive = true) ∧
    (shiftDoneEnabled s = true → s.rxne = true → step s = .next { b with ovr := true }) ∧
    (shiftDoneEnabled s = true → s.rxne = false →
      step s = .next { b with rxbuf := s.answer s.shift, rxne := true })

/-- 00_scope.md R9: any byte may be the SLAVE's answer, and where none is held ready it is the oracle's,
of the whole history, the level of `cs_n` and the byte sent (log 3). -/
def Obligations.SlaveAnswersAreFree : Prop :=
  ∀ (s : State) (t r : Byte) (rest : List Byte),
    State.answer { s with misoFeed := r :: rest } t = r ∧
    State.answer { s with misoFeed := [] } t =
      Config.slaveAnswer s.history (!(s.csAssert || s.engCs)) t

/-- The model's schedule (log 1, log 11, log 16): an internal step named while it is not enabled is not
taken and its turn passes, the same for HOST with nothing left to do and for a command the engine is not
running; and with no turn named an enabled internal step goes before HOST, so none waits for ever. -/
def Obligations.ScheduleOfTurns : Prop :=
  (∀ (s b : State) (g : Agent) (rest : List Agent), s.sched = g :: rest →
    b = { s with started := true, sched := rest } →
    (g = .shiftLoad → shiftLoadEnabled s = false → step s = .next b) ∧
    (g = .shiftDone → shiftDoneEnabled s = false → step s = .next b) ∧
    (g = .engine → engineEnabled s = false → step s = .next b) ∧
    (g = .host → s.host = [] → step s = .next b)) ∧
  (∀ (i : Instr) (w : Word) (s : State), encode i = .cmd w →
    engineEnabled s = false ∨ s.engCmd ≠ w → exec i s = .next s) ∧
  (∀ s : State, s.sched = [] → nextAgent s = .host →
    shiftLoadEnabled s = false ∧ shiftDoneEnabled s = false ∧ engineEnabled s = false)

/-- The bit level of an exchange, a refinement beside the step that no step reads (log 13): the edges of
40_spi_exchange.md R88, of which that rule marks mosi changing at the falling edge as from general knowledge,
carry both bytes most significant bit first (20_memory.md R61) and leave SCK high. -/
def Obligations.WireCarriesBothBytes : Prop :=
  ∀ (t r : Byte) (w : WireState),
    (wireExchange t r w).sck = true ∧ (wireExchange t r w).received = r ∧
    (wireExchange t r w).slaveReceived = t ∧ (wireEdges t r).length = 16 ∧
    (∀ i, i < 8 → (wireEdges t r)[2 * i]? = some (.fall (t.getLsbD (7 - i))) ∧
      (wireEdges t r)[2 * i + 1]? = some (.rise (r.getLsbD (7 - i))))

/-- 40_spi_exchange.md R90: an exchange from the idle enabled state is one DR write of `v`, one exchange
of its byte, one DR read that returns the byte the SLAVE supplied, and the next one may follow. -/
def Obligations.ManualExchange : Prop :=
  ∀ (s : State) (v : Word), s.clkOk = true → s.en = true → s.ebusy = false → s.txe = true →
    s.shActive = false → s.rxne = false →
    ∃ (w t : State) (r : Byte), exec (.wrDr v) s = .next w ∧
      exec .rdDr (shiftDone (shiftLoad w)) = .next t ∧
      t.history = s.history ++ [.hw 0x08 v, .xfer s.csN (v.setWidth 8) r .manual,
        .hr 0x08 (r.setWidth 32)] ∧
      t.txe = true ∧ t.rxne = false ∧ t.shActive = false ∧ t.bsy = false ∧ t.en = true ∧
      t.ovr = s.ovr ∧ t.csN = s.csN

/-! ### The protocol engine -/

/-- 41_protocol_engine.md R92 to R97: each command's micro-program, from its word. -/
def Obligations.MicroPrograms : Prop :=
  ∀ (a : SensorAddr) (n : BitVec 2) (d : Byte),
    expand (read1Word a) =
      [.csa, .xs (0x80 ||| a.setWidth 8), .xr Config.dummyByte 0, .csd, .fin] ∧
    (n = 1 → expand (readnWord a n) =
      [.csa, .xs (0xC0 ||| a.setWidth 8), .xr Config.dummyByte 0, .csd, .fin]) ∧
    (n = 2 → expand (readnWord a n) =
      [.csa, .xs (0xC0 ||| a.setWidth 8), .xr Config.dummyByte 0, .xr Config.dummyByte 1, .csd,
        .fin]) ∧
    (n = 3 → expand (readnWord a n) =
      [.csa, .xs (0xC0 ||| a.setWidth 8), .xr Config.dummyByte 0, .xr Config.dummyByte 1,
        .xr Config.dummyByte 2, .csd, .fin]) ∧
    expand (writeWord a d) = [.csa, .xs (a.setWidth 8), .xs d, .csd, .fin] ∧
    expand (initWord d) =
      [.csa, .xs 0x8F, .xr Config.dummyByte 0, .csd, .csa, .xs 0x20, .xs d, .csd, .fin] ∧
    expand readpWord =
      [.csa, .xs 0xE8, .xr Config.dummyByte 0, .xr Config.dummyByte 1, .xr Config.dummyByte 2,
        .csd, .fin]

/-- 41_protocol_engine.md R98, for each of the five commands: ENG_CSA. -/
def Obligations.EngineAssertsChipSelect : Prop :=
  ∀ (i : Instr) (w : Word) (s : State), i.wellFormed = true → encode i = .cmd w → Invariant s →
    s.clkOk = true → s.ebusy = true → s.engCmd = w → s.currentOp = some .csa →
    s.csN = true ∧
    exec i s = .next { s with
      engCs := true, engIdx := s.engIdx + 1, history := s.history ++ [.cs false] } ∧
    State.csN { s with engCs := true } = false

/-- 41_protocol_engine.md R99, for each of the five commands: ENG_X, with chip-select low. -/
def Obligations.EngineExchangesByte : Prop :=
  ∀ (i : Instr) (w : Word) (s : State), i.wellFormed = true → encode i = .cmd w → Invariant s →
    s.clkOk = true → s.ebusy = true → s.engCmd = w → ∀ t : Byte,
      (s.currentOp = some (.xs t) →
        exec i s = .next { s with
          misoFeed := s.misoFeed.tail, engIdx := s.engIdx + 1
          history := s.history ++ [.xfer false t (s.answer t) .engine] }) ∧
      (s.currentOp = some (.xr t 0) →
        exec i s = .next { s with
          misoFeed := s.misoFeed.tail, engIdx := s.engIdx + 1, engRx0 := s.answer t
          history := s.history ++ [.xfer false t (s.answer t) .engine] }) ∧
      (s.currentOp = some (.xr t 1) →
        exec i s = .next { s with
          misoFeed := s.misoFeed.tail, engIdx := s.engIdx + 1, engRx1 := s.answer t
          history := s.history ++ [.xfer false t (s.answer t) .engine] }) ∧
      (s.currentOp = some (.xr t 2) →
        exec i s = .next { s with
          misoFeed := s.misoFeed.tail, engIdx := s.engIdx + 1, engRx2 := s.answer t
          history := s.history ++ [.xfer false t (s.answer t) .engine] })

/-- 41_protocol_engine.md R100, for each of the five commands: ENG_CSD. -/
def Obligations.EngineDeassertsChipSelect : Prop :=
  ∀ (i : Instr) (w : Word) (s : State), i.wellFormed = true → encode i = .cmd w → Invariant s →
    s.clkOk = true → s.ebusy = true → s.engCmd = w → s.currentOp = some .csd →
    exec i s = .next { s with
      engCs := false, engIdx := s.engIdx + 1, history := s.history ++ [.cs true] } ∧
    State.csN { s with engCs := false } = true

/-- 41_protocol_engine.md R93: READ1's word, micro-program and results at FIN. -/
def Obligations.Read1Command : Prop :=
  (∀ (a : SensorAddr) (s : State),
    decodeCmd (0x00000001 ||| a.setWidth 32 <<< 8) = .ok (.read1 a) ∧
    expand (0x00000001 ||| a.setWidth 32 <<< 8) =
      [.csa, .xs (0x80 ||| a.setWidth 8), .xr Config.dummyByte 0, .csd, .fin] ∧
    (s.clkOk = true → s.ebusy = true → s.engCmd = 0x00000001 ||| a.setWidth 32 <<< 8 →
      s.currentOp = some .fin →
      exec (.read1 a) s = .next { s with
        rdata := s.engRx0.setWidth 32
        ebusy := false, done := true, engOps := [], engIdx := 0 })) ∧
  expand 0x00000F01 = [.csa, .xs 0x8F, .xr Config.dummyByte 0, .csd, .fin]

/-- 41_protocol_engine.md R94: READN's word, micro-program and results at FIN; CNT = 0 is not legal; and at
FIN the ENG_RX bytes not received are still 0x00, whatever the schedule. -/
def Obligations.ReadnCommand : Prop :=
  (∀ (a : SensorAddr) (n : BitVec 2) (s : State) (w : Word),
    w = 0x00000002 ||| a.setWidth 32 <<< 8 ||| n.setWidth 32 <<< 4 →
    (n = 0 → legal w = false) ∧
    (n ≠ 0 → decodeCmd w = .ok (.readn a n) ∧
      expand w = [.csa, .xs (0xC0 ||| a.setWidth 8)] ++
        [MicroOp.xr Config.dummyByte 0, .xr Config.dummyByte 1, .xr Config.dummyByte 2].take
          n.toNat ++ [.csd, .fin] ∧
      (s.clkOk = true → s.ebusy = true → s.engCmd = w → s.currentOp = some .fin →
        exec (.readn a n) s = .next { s with
          rdata := s.engRx0.setWidth 32 ||| s.engRx1.setWidth 32 <<< 8 |||
            s.engRx2.setWidth 32 <<< 16
          ebusy := false, done := true, engOps := [], engIdx := 0 }) ∧
      (Invariant s → CommandOnWire s → s.ebusy = true → s.engCmd = w → s.currentOp = some .fin →
        (n.toNat < 2 → s.engRx1 = 0x00) ∧ (n.toNat < 3 → s.engRx2 = 0x00)))) ∧
  expand 0x00002822 =
    [.csa, .xs 0xE8, .xr Config.dummyByte 0, .xr Config.dummyByte 1, .csd, .fin]

/-- 41_protocol_engine.md R95: WRITE's word, micro-program and end: RDATA, PRESS and IDOK stay. -/
def Obligations.WriteCommand : Prop :=
  (∀ (a : SensorAddr) (d : Byte) (s : State) (w : Word),
    w = 0x00000003 ||| a.setWidth 32 <<< 8 ||| d.setWidth 32 <<< 16 →
    decodeCmd w = .ok (.write a d) ∧
    expand w = [.csa, .xs (a.setWidth 8), .xs d, .csd, .fin] ∧
    (s.clkOk = true → s.ebusy = true → s.engCmd = w → s.currentOp = some .fin →
      exec (.write a d) s = .next { s with
        ebusy := false, done := true, engOps := [], engIdx := 0 })) ∧
  expand 0x00902003 = [.csa, .xs 0x20, .xs 0x90, .csd, .fin]

/-- 41_protocol_engine.md R96: INIT's word, micro-program with its two transactions, and results at
FIN; and at FIN, whatever the schedule, the command's pin events are its two transactions, so that `cs_n`
shows exactly two low-then-high pulses, and ENG_RX[0] is the identification byte. -/
def Obligations.InitCommand : Prop :=
  ∀ (d : Byte) (s : State) (w : Word), w = 0x00000004 ||| d.setWidth 32 <<< 16 →
    decodeCmd w = .ok (.init d) ∧
    expand w =
      [.csa, .xs 0x8F, .xr Config.dummyByte 0, .csd, .csa, .xs 0x20, .xs d, .csd, .fin] ∧
    (s.clkOk = true → s.ebusy = true → s.engCmd = w → s.currentOp = some .fin →
      exec (.init d) s = .next { s with
        rdata := s.engRx0.setWidth 32, idok := decide (s.engRx0 = 0xBD)
        ebusy := false, done := true, engOps := [], engIdx := 0 }) ∧
    (Invariant s → CommandOnWire s → s.ebusy = true → s.engCmd = w → s.currentOp = some .fin →
      ∃ (before : List Event) (f b g h : Byte),
        wireHistory s.history = before ++
          [.cs false, .xfer false 0x8F f .engine, .xfer false Config.dummyByte b .engine, .cs true,
            .cs false, .xfer false 0x20 g .engine, .xfer false d h .engine, .cs true] ∧
        s.engRx0 = b)

/-- 41_protocol_engine.md R97: READP's word, micro-program and results at FIN; PRESS is in 0..4095. -/
def Obligations.ReadpCommand : Prop :=
  ∀ (s : State) (raw : Word),
    raw = s.engRx2.setWidth 32 <<< 16 ||| s.engRx1.setWidth 32 <<< 8 ||| s.engRx0.setWidth 32 →
    decodeCmd 0x00000005 = .ok .readp ∧
    expand 0x00000005 =
      [.csa, .xs 0xE8, .xr Config.dummyByte 0, .xr Config.dummyByte 1, .xr Config.dummyByte 2,
        .csd, .fin] ∧
    (s.clkOk = true → s.ebusy = true → s.engCmd = 0x00000005 → s.currentOp = some .fin →
      exec .readp s = .next { s with
        rdata := raw, press := raw.sshiftRight 12
        ebusy := false, done := true, engOps := [], engIdx := 0 }) ∧
    (raw.sshiftRight 12).toNat ≤ 4095

/-- 41_protocol_engine.md R107: a command's step changes no manual-path state, no error bit, and neither
CTRL, CSCTL.ASSERT nor CMD; only FIN changes RDATA, PRESS, IDOK or DONE. -/
def Obligations.EngineLeavesManualPath : Prop :=
  ∀ (i : Instr) (w : Word) (s t : State), encode i = .cmd w → exec i s = .next t →
    t.txbuf = s.txbuf ∧ t.txe = s.txe ∧ t.shift = s.shift ∧ t.shActive = s.shActive ∧
    t.rxbuf = s.rxbuf ∧ t.rxne = s.rxne ∧ t.ovr = s.ovr ∧ t.ctrl = s.ctrl ∧
    t.csAssert = s.csAssert ∧ t.cmd = s.cmd ∧ t.errCmd = s.errCmd ∧ t.errBusy = s.errBusy ∧
    t.errCfg = s.errCfg ∧ t.errTxovw = s.errTxovw ∧ t.engCmd = s.engCmd ∧
    (s.currentOp ≠ some .fin →
      t.rdata = s.rdata ∧ t.press = s.press ∧ t.idok = s.idok ∧ t.done = s.done ∧
      t.ebusy = s.ebusy ∧ t.engOps = s.engOps)

/-- 10_state.md R28, R37, R38: who writes IDOK, RDATA and PRESS. -/
def Obligations.ResultsOnlyByTheirCommands : Prop :=
  ∀ s t : State, step s = .next t → nextAgent s ≠ .rst →
    (t.rdata ≠ s.rdata → nextAgent s = .engine ∧ s.currentOp = some .fin ∧
      (opField s.engCmd = 1 ∨ opField s.engCmd = 2 ∨ opField s.engCmd = 4 ∨ opField s.engCmd = 5)) ∧
    (t.press ≠ s.press → nextAgent s = .engine ∧ s.currentOp = some .fin ∧ s.engCmd = 0x00000005) ∧
    (t.idok ≠ s.idok → nextAgent s = .engine ∧ s.currentOp = some .fin ∧ opField s.engCmd = 4)

/-! ### Steps -/

/-- A host turn runs the instruction its access decodes to, with the turn and the access used up. -/
def Obligations.StepRunsHostInstruction : Prop :=
  ∀ (s : State) (isWrite : Bool) (off : BitVec 8) (v : Word) (rest : List HostOp) (i : Instr),
    nextAgent s = .host → s.host = .access ⟨isWrite, off, 4, v⟩ :: rest → s.clkOk = true →
    decodeBus (BitVec.ofBool isWrite ++ off) v = .ok i →
    step s = exec i { s with sched := s.sched.tail, started := true, host := rest }

/-- An engine turn runs the command that ENG_CMD decodes to, with the turn used up. -/
def Obligations.StepRunsCommand : Prop :=
  ∀ (s : State) (i : Instr), nextAgent s = .engine → decodeCmd s.engCmd = .ok i →
    step s = exec i { s with sched := s.sched.tail, started := true }

/-- A table word that decodes is what the next step runs: an access's instruction with the clock on, and
a command in the engine that has just accepted it. -/
def Obligations.FetchedWordRuns : Prop :=
  ∀ (s : State) (nbits w : Nat) (i : Instr), s.clkOk = true → decodeTableWord nbits w = some i →
    ∃ b, step (s.withFetchWord nbits w) = exec i b ∧ b.started = true ∧ b.sched = s.sched ∧
      b.host = s.host ∧ b.history = s.history ∧
      (nbits ≤ 16 → b = { s with started := true }) ∧
      (16 < nbits → b = { s.startCommand (BitVec.ofNat 32 w) with started := true })

/-- The history is append-only (10_state.md R45), and a step adds at most one event but for a CSCTL write
that moves `cs_n`, whose HW event comes first by the model's choice (log 10). -/
def Obligations.HistoryGrowsByEvents : Prop :=
  ∀ s t : State, step s = .next t → nextAgent s ≠ .rst →
    ∃ es : List Event, t.history = s.history ++ es ∧ es.length ≤ 2 ∧
      (es.length = 2 → nextAgent s = .host ∧ ∃ v b, es = [.hw 0x0C v, .cs b])

/-! ### Reset -/

/-- 70_reset_and_hazards.md R124: the reset values, after a reset that starts a run; a byte or a command
in progress is abandoned. -/
def Obligations.ResetValues : Prop :=
  (∀ (s : State) (rest : List Agent), s.started = false → s.sched = .rst :: rest →
    ∃ t, step s = .next t ∧ t.ctrl = 0 ∧ t.statusWord = 0x00000002 ∧ t.csctlWord = 0x00000002 ∧
      t.cmd = 0x00000000 ∧ t.rdata = 0x00000000 ∧ t.press = 0x00000000 ∧ t.txbuf = 0x00 ∧
      t.shift = 0x00 ∧ t.rxbuf = 0x00 ∧ t.shActive = false ∧ t.engOps = [] ∧ t.engIdx = 0 ∧
      t.engRx0 = 0x00 ∧ t.engRx1 = 0x00 ∧ t.engRx2 = 0x00 ∧ t.engCs = false ∧ t.csN = true ∧
      t.history = []) ∧
  State.reset.ctrl = 0 ∧ State.reset.statusWord = 0x00000002 ∧
  State.reset.csctlWord = 0x00000002 ∧ State.reset.cmd = 0 ∧ State.reset.rdata = 0 ∧
  State.reset.press = 0 ∧ State.reset.txbuf = 0 ∧ State.reset.shift = 0 ∧ State.reset.rxbuf = 0 ∧
  State.reset.shActive = false ∧ State.reset.engOps = [] ∧ State.reset.engIdx = 0 ∧
  State.reset.engRx0 = 0 ∧ State.reset.engRx1 = 0 ∧ State.reset.engRx2 = 0 ∧
  State.reset.engCs = false ∧ State.reset.csN = true

/-- 70_reset_and_hazards.md R125: an empty history at reset, after which SPIM waits for host accesses, and
no reset after the first step. -/
def Obligations.NoResetAfterFirstStep : Prop :=
  State.reset.history = [] ∧ step State.reset = .next { State.reset with started := true } ∧
  (∀ s t : State, step s = .next t → t.started = true) ∧
  (∀ (s : State) (rest : List Agent), s.started = true → s.sched = .rst :: rest →
    step s = .refused .resetAfterFirstStep)

/-! ### Invariants and whole commands -/

/-- The invariant holds at reset. -/
def Obligations.InvariantAtReset : Prop := Invariant State.reset ∧ CommandOnWire State.reset

/-- Every step keeps the invariant. -/
def Obligations.StepKeepsInvariant : Prop :=
  ∀ s t : State, Invariant s → step s = .next t → Invariant t

/-- Every step keeps the running command's pin events consecutive and its received bytes in place,
whatever HOST does meanwhile (41_protocol_engine.md R107). -/
def Obligations.StepKeepsCommandOnWire : Prop :=
  ∀ s t : State, Invariant s → CommandOnWire s → step s = .next t → CommandOnWire t

/-- 60_exceptions.md R121 for the model's default schedule, and for that one only: no turn is scheduled, so
enabled internal steps go before HOST (log 1). With the clock on SPIM is then not busy after at most 9 steps,
whatever the SLAVE answers. -/
def Obligations.NeverHangs : Prop :=
  ∀ s : State, Invariant s → s.clkOk = true → s.sched = [] →
    ∃ n t, n ≤ 9 ∧ Host.Core.run Sys2Proof.core n s = .next t ∧ t.bsy = false ∧
      (s.ebusy = true → t.done = true ∧ t.csN = true)

/-- A READP that has just been accepted and runs through under the default schedule, in which no HOST step
comes between (no turn scheduled, enabled internal steps first: log 1): the bytes on the wire, and RDATA and PRESS for
every three bytes (41_protocol_engine.md R97; 95_test_vectors.md S3, S4). -/
def Obligations.ReadpEndToEnd : Prop :=
  ∀ s : State, Invariant s → s.clkOk = true → s.sched = [] → s.ebusy = true → s.engIdx = 0 →
    s.engCmd = 0x00000005 →
    ∃ (f b0 b1 b2 : Byte) (t : State), Host.Core.run Sys2Proof.core 7 s = .next t ∧
      t.history = s.history ++ [.cs false, .xfer false 0xE8 f .engine,
        .xfer false Config.dummyByte b0 .engine, .xfer false Config.dummyByte b1 .engine,
        .xfer false Config.dummyByte b2 .engine, .cs true] ∧
      t.rdata.toNat = b2.toNat * 65536 + b1.toNat * 256 + b0.toNat ∧
      t.press.toNat = (b2.toNat * 65536 + b1.toNat * 256 + b0.toNat) / 4096 ∧
      t.ebusy = false ∧ t.done = true ∧ t.csN = true ∧ t.idok = s.idok ∧ t.host = s.host

/-- An INIT that has just been accepted and runs through under the default schedule, in which no HOST step
comes between (no turn scheduled, enabled internal steps first: log 1): two low-then-high pulses of `cs_n`,
and IDOK iff the identification byte is 0xBD (41_protocol_engine.md R96; 95_test_vectors.md S5, S6). -/
def Obligations.InitEndToEnd : Prop :=
  ∀ (s : State) (d : Byte), Invariant s → s.clkOk = true → s.sched = [] → s.ebusy = true →
    s.engIdx = 0 → s.engCmd = initWord d →
    ∃ (f b g h : Byte) (t : State), Host.Core.run Sys2Proof.core 9 s = .next t ∧
      t.history = s.history ++ [.cs false, .xfer false 0x8F f .engine,
        .xfer false Config.dummyByte b .engine, .cs true, .cs false,
        .xfer false 0x20 g .engine, .xfer false d h .engine, .cs true] ∧
      t.rdata.toNat = b.toNat ∧ (t.idok = true ↔ b = 0xBD) ∧
      t.ebusy = false ∧ t.done = true ∧ t.csN = true ∧ t.press = s.press ∧ t.host = s.host

/-- A READ1, READN or WRITE that has just been accepted and runs through under the default schedule, in
which no HOST step comes between (no turn scheduled, enabled internal steps first: log 1): the bytes on the
wire and the result registers (41_protocol_engine.md R93 to R95). -/
def Obligations.ReadAndWriteEndToEnd : Prop :=
  ∀ (s : State) (a : SensorAddr) (n : BitVec 2) (d : Byte), Invariant s → s.clkOk = true →
    s.sched = [] → s.ebusy = true → s.engIdx = 0 →
    s.engRx0 = 0 → s.engRx1 = 0 → s.engRx2 = 0 →
    (s.engCmd = read1Word a → ∃ (f b : Byte) (t : State),
      Host.Core.run Sys2Proof.core 5 s = .next t ∧
      t.history = s.history ++ [.cs false, .xfer false (0x80 ||| a.setWidth 8) f .engine,
        .xfer false Config.dummyByte b .engine, .cs true] ∧
      t.rdata.toNat = b.toNat ∧ t.press = s.press ∧ t.idok = s.idok ∧
      t.ebusy = false ∧ t.done = true ∧ t.csN = true) ∧
    (n ≠ 0 → s.engCmd = readnWord a n → ∃ (f b0 b1 b2 : Byte) (t : State),
      Host.Core.run Sys2Proof.core (n.toNat + 4) s = .next t ∧
      t.history = s.history ++ [.cs false, .xfer false (0xC0 ||| a.setWidth 8) f .engine] ++
        ([b0, b1, b2].take n.toNat).map (fun b => .xfer false Config.dummyByte b .engine) ++
        [.cs true] ∧
      t.rdata.toNat = (if n.toNat < 3 then 0 else b2.toNat * 65536) +
        (if n.toNat < 2 then 0 else b1.toNat * 256) + b0.toNat ∧
      t.press = s.press ∧ t.idok = s.idok ∧
      t.ebusy = false ∧ t.done = true ∧ t.csN = true) ∧
    (s.engCmd = writeWord a d → ∃ (f g : Byte) (t : State),
      Host.Core.run Sys2Proof.core 5 s = .next t ∧
      t.history = s.history ++ [.cs false, .xfer false (a.setWidth 8) f .engine,
        .xfer false d g .engine, .cs true] ∧
      t.rdata = s.rdata ∧ t.press = s.press ∧ t.idok = s.idok ∧
      t.ebusy = false ∧ t.done = true ∧ t.csN = true)
end

