-- ==== Sys2Proof/Laws/Decode.lean ====
section
/-! SUPPORT. The fields of a command word, and what each encoder function puts into them. -/

namespace Sys2Proof

/-- The reserved bits of a command word (30_encoding.md R67). -/
abbrev reserved6 (w : Word) : BitVec 2 := w.extractLsb' 6 2
abbrev reserved14 (w : Word) : BitVec 2 := w.extractLsb' 14 2
abbrev reserved24 (w : Word) : Byte := w.extractLsb' 24 8

/-- The fields make up the word. -/
theorem word_eq_of_fields {u w : Word} (hop : opField u = opField w)
    (hcnt : cntField u = cntField w) (h6 : reserved6 u = reserved6 w)
    (haddr : addrField u = addrField w) (h14 : reserved14 u = reserved14 w)
    (hdata : dataField u = dataField w) (h24 : reserved24 u = reserved24 w) : u = w := by
  apply BitVec.eq_of_toNat_eq
  have h := And.intro (congrArg BitVec.toNat hop) (And.intro (congrArg BitVec.toNat hcnt)
    (And.intro (congrArg BitVec.toNat h6) (And.intro (congrArg BitVec.toNat haddr)
    (And.intro (congrArg BitVec.toNat h14) (And.intro (congrArg BitVec.toNat hdata)
    (congrArg BitVec.toNat h24))))))
  simp only [opField, cntField, addrField, dataField, BitVec.extractLsb'_toNat,
    Nat.shiftRight_eq_div_pow] at h
  have := u.isLt
  have := w.isLt
  omega

@[simp] theorem opField_read1Word (a : SensorAddr) : opField (read1Word a) = 1 := by
  revert a; decide
@[simp] theorem cntField_read1Word (a : SensorAddr) : cntField (read1Word a) = 0 := by
  revert a; decide
@[simp] theorem addrField_read1Word (a : SensorAddr) : addrField (read1Word a) = a := by
  revert a; decide
@[simp] theorem dataField_read1Word (a : SensorAddr) : dataField (read1Word a) = 0 := by
  revert a; decide
@[simp] theorem legal_read1Word (a : SensorAddr) : legal (read1Word a) = true := by
  revert a; decide

@[simp] theorem opField_readnWord (a : SensorAddr) (n : BitVec 2) :
    opField (readnWord a n) = 2 := by
  revert a n; decide
@[simp] theorem cntField_readnWord (a : SensorAddr) (n : BitVec 2) :
    cntField (readnWord a n) = n := by
  revert a n; decide
@[simp] theorem addrField_readnWord (a : SensorAddr) (n : BitVec 2) :
    addrField (readnWord a n) = a := by
  revert a n; decide
@[simp] theorem dataField_readnWord (a : SensorAddr) (n : BitVec 2) :
    dataField (readnWord a n) = 0 := by
  revert a n; decide
@[simp] theorem legal_readnWord (a : SensorAddr) (n : BitVec 2) :
    legal (readnWord a n) = (n != 0) := by
  revert a n; decide

@[simp] theorem opField_writeWord (a : SensorAddr) (d : Byte) : opField (writeWord a d) = 3 := by
  unfold opField writeWord; ext i hi; simp; interval_cases i <;> simp
@[simp] theorem cntField_writeWord (a : SensorAddr) (d : Byte) : cntField (writeWord a d) = 0 := by
  unfold cntField writeWord; ext i hi; simp; interval_cases i <;> simp
@[simp] theorem addrField_writeWord (a : SensorAddr) (d : Byte) :
    addrField (writeWord a d) = a := by
  unfold addrField writeWord; ext i hi; simp; interval_cases i <;> simp
@[simp] theorem dataField_writeWord (a : SensorAddr) (d : Byte) :
    dataField (writeWord a d) = d := by
  unfold dataField writeWord; ext i hi; simp; interval_cases i <;> simp
@[simp] theorem reserved6_writeWord (a : SensorAddr) (d : Byte) :
    reserved6 (writeWord a d) = 0 := by
  unfold reserved6 writeWord; ext i hi; simp; interval_cases i <;> simp
@[simp] theorem reserved14_writeWord (a : SensorAddr) (d : Byte) :
    reserved14 (writeWord a d) = 0 := by
  unfold reserved14 writeWord; ext i hi; simp; interval_cases i <;> simp
@[simp] theorem reserved24_writeWord (a : SensorAddr) (d : Byte) :
    reserved24 (writeWord a d) = 0 := by
  unfold reserved24 writeWord; ext i hi; simp; interval_cases i <;> simp
@[simp] theorem legal_writeWord (a : SensorAddr) (d : Byte) : legal (writeWord a d) = true := by
  have h6 := reserved6_writeWord a d
  have h14 := reserved14_writeWord a d
  have h24 := reserved24_writeWord a d
  simp_all [legal]

/-- INIT's word is WRITE's with OP 4 and no address. -/
@[simp] theorem opField_initWord (d : Byte) : opField (initWord d) = 4 := by revert d; decide
@[simp] theorem cntField_initWord (d : Byte) : cntField (initWord d) = 0 := by revert d; decide
@[simp] theorem addrField_initWord (d : Byte) : addrField (initWord d) = 0 := by revert d; decide
@[simp] theorem dataField_initWord (d : Byte) : dataField (initWord d) = d := by revert d; decide
@[simp] theorem legal_initWord (d : Byte) : legal (initWord d) = true := by revert d; decide

end Sys2Proof
end

