-- ==== Sys2Proof/Laws/State.lean ====
section
/-! SUPPORT. What each state update leaves in each field, one lemma a field. -/

namespace Sys2Proof.Machine


/-! ### State.record -/

@[simp] theorem record_clkOk (e : Event) (s : State) : (s.record e).clkOk = s.clkOk := rfl
@[simp] theorem record_started (e : Event) (s : State) : (s.record e).started = s.started := rfl
@[simp] theorem record_sched (e : Event) (s : State) : (s.record e).sched = s.sched := rfl
@[simp] theorem record_host (e : Event) (s : State) : (s.record e).host = s.host := rfl
@[simp] theorem record_misoFeed (e : Event) (s : State) : (s.record e).misoFeed = s.misoFeed := rfl
@[simp] theorem record_ctrl (e : Event) (s : State) : (s.record e).ctrl = s.ctrl := rfl
@[simp] theorem record_rxne (e : Event) (s : State) : (s.record e).rxne = s.rxne := rfl
@[simp] theorem record_txe (e : Event) (s : State) : (s.record e).txe = s.txe := rfl
@[simp] theorem record_ovr (e : Event) (s : State) : (s.record e).ovr = s.ovr := rfl
@[simp] theorem record_ebusy (e : Event) (s : State) : (s.record e).ebusy = s.ebusy := rfl
@[simp] theorem record_done (e : Event) (s : State) : (s.record e).done = s.done := rfl
@[simp] theorem record_idok (e : Event) (s : State) : (s.record e).idok = s.idok := rfl
@[simp] theorem record_errCmd (e : Event) (s : State) : (s.record e).errCmd = s.errCmd := rfl
@[simp] theorem record_errBusy (e : Event) (s : State) : (s.record e).errBusy = s.errBusy := rfl
@[simp] theorem record_errCfg (e : Event) (s : State) : (s.record e).errCfg = s.errCfg := rfl
@[simp] theorem record_errTxovw (e : Event) (s : State) : (s.record e).errTxovw = s.errTxovw := rfl
@[simp] theorem record_txbuf (e : Event) (s : State) : (s.record e).txbuf = s.txbuf := rfl
@[simp] theorem record_shActive (e : Event) (s : State) : (s.record e).shActive = s.shActive := rfl
@[simp] theorem record_shift (e : Event) (s : State) : (s.record e).shift = s.shift := rfl
@[simp] theorem record_rxbuf (e : Event) (s : State) : (s.record e).rxbuf = s.rxbuf := rfl
@[simp] theorem record_csAssert (e : Event) (s : State) : (s.record e).csAssert = s.csAssert := rfl
@[simp] theorem record_cmd (e : Event) (s : State) : (s.record e).cmd = s.cmd := rfl
@[simp] theorem record_rdata (e : Event) (s : State) : (s.record e).rdata = s.rdata := rfl
@[simp] theorem record_press (e : Event) (s : State) : (s.record e).press = s.press := rfl
@[simp] theorem record_engOps (e : Event) (s : State) : (s.record e).engOps = s.engOps := rfl
@[simp] theorem record_engIdx (e : Event) (s : State) : (s.record e).engIdx = s.engIdx := rfl
@[simp] theorem record_engCmd (e : Event) (s : State) : (s.record e).engCmd = s.engCmd := rfl
@[simp] theorem record_engRx0 (e : Event) (s : State) : (s.record e).engRx0 = s.engRx0 := rfl
@[simp] theorem record_engRx1 (e : Event) (s : State) : (s.record e).engRx1 = s.engRx1 := rfl
@[simp] theorem record_engRx2 (e : Event) (s : State) : (s.record e).engRx2 = s.engRx2 := rfl
@[simp] theorem record_engCs (e : Event) (s : State) : (s.record e).engCs = s.engCs := rfl
@[simp] theorem record_history (e : Event) (s : State) :
    (s.record e).history = s.history ++ [e] := rfl
@[simp] theorem record_en (e : Event) (s : State) :
    (s.record e).en = s.en := rfl
@[simp] theorem record_csN (e : Event) (s : State) :
    (s.record e).csN = s.csN := rfl
@[simp] theorem record_bsy (e : Event) (s : State) :
    (s.record e).bsy = s.bsy := rfl

/-! ### State.exchange -/

@[simp] theorem exchange_clkOk (src : Source) (t : Byte) (s : State) :
    (s.exchange src t).clkOk = s.clkOk := rfl
@[simp] theorem exchange_started (src : Source) (t : Byte) (s : State) :
    (s.exchange src t).started = s.started := rfl
@[simp] theorem exchange_sched (src : Source) (t : Byte) (s : State) :
    (s.exchange src t).sched = s.sched := rfl
@[simp] theorem exchange_host (src : Source) (t : Byte) (s : State) :
    (s.exchange src t).host = s.host := rfl
@[simp] theorem exchange_misoFeed (src : Source) (t : Byte) (s : State) :
    (s.exchange src t).misoFeed = s.misoFeed.tail := rfl
@[simp] theorem exchange_ctrl (src : Source) (t : Byte) (s : State) :
    (s.exchange src t).ctrl = s.ctrl := rfl
@[simp] theorem exchange_rxne (src : Source) (t : Byte) (s : State) :
    (s.exchange src t).rxne = s.rxne := rfl
@[simp] theorem exchange_txe (src : Source) (t : Byte) (s : State) :
    (s.exchange src t).txe = s.txe := rfl
@[simp] theorem exchange_ovr (src : Source) (t : Byte) (s : State) :
    (s.exchange src t).ovr = s.ovr := rfl
@[simp] theorem exchange_ebusy (src : Source) (t : Byte) (s : State) :
    (s.exchange src t).ebusy = s.ebusy := rfl
@[simp] theorem exchange_done (src : Source) (t : Byte) (s : State) :
    (s.exchange src t).done = s.done := rfl
@[simp] theorem exchange_idok (src : Source) (t : Byte) (s : State) :
    (s.exchange src t).idok = s.idok := rfl
@[simp] theorem exchange_errCmd (src : Source) (t : Byte) (s : State) :
    (s.exchange src t).errCmd = s.errCmd := rfl
@[simp] theorem exchange_errBusy (src : Source) (t : Byte) (s : State) :
    (s.exchange src t).errBusy = s.errBusy := rfl
@[simp] theorem exchange_errCfg (src : Source) (t : Byte) (s : State) :
    (s.exchange src t).errCfg = s.errCfg := rfl
@[simp] theorem exchange_errTxovw (src : Source) (t : Byte) (s : State) :
    (s.exchange src t).errTxovw = s.errTxovw := rfl
@[simp] theorem exchange_txbuf (src : Source) (t : Byte) (s : State) :
    (s.exchange src t).txbuf = s.txbuf := rfl
@[simp] theorem exchange_shActive (src : Source) (t : Byte) (s : State) :
    (s.exchange src t).shActive = s.shActive := rfl
@[simp] theorem exchange_shift (src : Source) (t : Byte) (s : State) :
    (s.exchange src t).shift = s.shift := rfl
@[simp] theorem exchange_rxbuf (src : Source) (t : Byte) (s : State) :
    (s.exchange src t).rxbuf = s.rxbuf := rfl
@[simp] theorem exchange_csAssert (src : Source) (t : Byte) (s : State) :
    (s.exchange src t).csAssert = s.csAssert := rfl
@[simp] theorem exchange_cmd (src : Source) (t : Byte) (s : State) :
    (s.exchange src t).cmd = s.cmd := rfl
@[simp] theorem exchange_rdata (src : Source) (t : Byte) (s : State) :
    (s.exchange src t).rdata = s.rdata := rfl
@[simp] theorem exchange_press (src : Source) (t : Byte) (s : State) :
    (s.exchange src t).press = s.press := rfl
@[simp] theorem exchange_engOps (src : Source) (t : Byte) (s : State) :
    (s.exchange src t).engOps = s.engOps := rfl
@[simp] theorem exchange_engIdx (src : Source) (t : Byte) (s : State) :
    (s.exchange src t).engIdx = s.engIdx := rfl
@[simp] theorem exchange_engCmd (src : Source) (t : Byte) (s : State) :
    (s.exchange src t).engCmd = s.engCmd := rfl
@[simp] theorem exchange_engRx0 (src : Source) (t : Byte) (s : State) :
    (s.exchange src t).engRx0 = s.engRx0 := rfl
@[simp] theorem exchange_engRx1 (src : Source) (t : Byte) (s : State) :
    (s.exchange src t).engRx1 = s.engRx1 := rfl
@[simp] theorem exchange_engRx2 (src : Source) (t : Byte) (s : State) :
    (s.exchange src t).engRx2 = s.engRx2 := rfl
@[simp] theorem exchange_engCs (src : Source) (t : Byte) (s : State) :
    (s.exchange src t).engCs = s.engCs := rfl
@[simp] theorem exchange_history (src : Source) (t : Byte) (s : State) :
    (s.exchange src t).history = s.history ++ [.xfer s.csN t (s.answer t) src] := rfl
@[simp] theorem exchange_en (src : Source) (t : Byte) (s : State) :
    (s.exchange src t).en = s.en := rfl
@[simp] theorem exchange_csN (src : Source) (t : Byte) (s : State) :
    (s.exchange src t).csN = s.csN := rfl
@[simp] theorem exchange_bsy (src : Source) (t : Byte) (s : State) :
    (s.exchange src t).bsy = s.bsy := rfl

/-! ### State.driveCs -/

@[simp] theorem driveCs_clkOk (a e : Bool) (s : State) :
    (s.driveCs a e).clkOk = s.clkOk := by
  unfold State.driveCs; dsimp only; split <;> rfl
@[simp] theorem driveCs_started (a e : Bool) (s : State) :
    (s.driveCs a e).started = s.started := by
  unfold State.driveCs; dsimp only; split <;> rfl
@[simp] theorem driveCs_sched (a e : Bool) (s : State) :
    (s.driveCs a e).sched = s.sched := by
  unfold State.driveCs; dsimp only; split <;> rfl
@[simp] theorem driveCs_host (a e : Bool) (s : State) :
    (s.driveCs a e).host = s.host := by
  unfold State.driveCs; dsimp only; split <;> rfl
@[simp] theorem driveCs_misoFeed (a e : Bool) (s : State) :
    (s.driveCs a e).misoFeed = s.misoFeed := by
  unfold State.driveCs; dsimp only; split <;> rfl
@[simp] theorem driveCs_ctrl (a e : Bool) (s : State) :
    (s.driveCs a e).ctrl = s.ctrl := by
  unfold State.driveCs; dsimp only; split <;> rfl
@[simp] theorem driveCs_rxne (a e : Bool) (s : State) :
    (s.driveCs a e).rxne = s.rxne := by
  unfold State.driveCs; dsimp only; split <;> rfl
@[simp] theorem driveCs_txe (a e : Bool) (s : State) :
    (s.driveCs a e).txe = s.txe := by
  unfold State.driveCs; dsimp only; split <;> rfl
@[simp] theorem driveCs_ovr (a e : Bool) (s : State) :
    (s.driveCs a e).ovr = s.ovr := by
  unfold State.driveCs; dsimp only; split <;> rfl
@[simp] theorem driveCs_ebusy (a e : Bool) (s : State) :
    (s.driveCs a e).ebusy = s.ebusy := by
  unfold State.driveCs; dsimp only; split <;> rfl
@[simp] theorem driveCs_done (a e : Bool) (s : State) :
    (s.driveCs a e).done = s.done := by
  unfold State.driveCs; dsimp only; split <;> rfl
@[simp] theorem driveCs_idok (a e : Bool) (s : State) :
    (s.driveCs a e).idok = s.idok := by
  unfold State.driveCs; dsimp only; split <;> rfl
@[simp] theorem driveCs_errCmd (a e : Bool) (s : State) :
    (s.driveCs a e).errCmd = s.errCmd := by
  unfold State.driveCs; dsimp only; split <;> rfl
@[simp] theorem driveCs_errBusy (a e : Bool) (s : State) :
    (s.driveCs a e).errBusy = s.errBusy := by
  unfold State.driveCs; dsimp only; split <;> rfl
@[simp] theorem driveCs_errCfg (a e : Bool) (s : State) :
    (s.driveCs a e).errCfg = s.errCfg := by
  unfold State.driveCs; dsimp only; split <;> rfl
@[simp] theorem driveCs_errTxovw (a e : Bool) (s : State) :
    (s.driveCs a e).errTxovw = s.errTxovw := by
  unfold State.driveCs; dsimp only; split <;> rfl
@[simp] theorem driveCs_txbuf (a e : Bool) (s : State) :
    (s.driveCs a e).txbuf = s.txbuf := by
  unfold State.driveCs; dsimp only; split <;> rfl
@[simp] theorem driveCs_shActive (a e : Bool) (s : State) :
    (s.driveCs a e).shActive = s.shActive := by
  unfold State.driveCs; dsimp only; split <;> rfl
@[simp] theorem driveCs_shift (a e : Bool) (s : State) :
    (s.driveCs a e).shift = s.shift := by
  unfold State.driveCs; dsimp only; split <;> rfl
@[simp] theorem driveCs_rxbuf (a e : Bool) (s : State) :
    (s.driveCs a e).rxbuf = s.rxbuf := by
  unfold State.driveCs; dsimp only; split <;> rfl
@[simp] theorem driveCs_csAssert (a e : Bool) (s : State) :
    (s.driveCs a e).csAssert = a := by
  unfold State.driveCs; dsimp only; split <;> rfl
@[simp] theorem driveCs_cmd (a e : Bool) (s : State) :
    (s.driveCs a e).cmd = s.cmd := by
  unfold State.driveCs; dsimp only; split <;> rfl
@[simp] theorem driveCs_rdata (a e : Bool) (s : State) :
    (s.driveCs a e).rdata = s.rdata := by
  unfold State.driveCs; dsimp only; split <;> rfl
@[simp] theorem driveCs_press (a e : Bool) (s : State) :
    (s.driveCs a e).press = s.press := by
  unfold State.driveCs; dsimp only; split <;> rfl
@[simp] theorem driveCs_engOps (a e : Bool) (s : State) :
    (s.driveCs a e).engOps = s.engOps := by
  unfold State.driveCs; dsimp only; split <;> rfl
@[simp] theorem driveCs_engIdx (a e : Bool) (s : State) :
    (s.driveCs a e).engIdx = s.engIdx := by
  unfold State.driveCs; dsimp only; split <;> rfl
@[simp] theorem driveCs_engCmd (a e : Bool) (s : State) :
    (s.driveCs a e).engCmd = s.engCmd := by
  unfold State.driveCs; dsimp only; split <;> rfl
@[simp] theorem driveCs_engRx0 (a e : Bool) (s : State) :
    (s.driveCs a e).engRx0 = s.engRx0 := by
  unfold State.driveCs; dsimp only; split <;> rfl
@[simp] theorem driveCs_engRx1 (a e : Bool) (s : State) :
    (s.driveCs a e).engRx1 = s.engRx1 := by
  unfold State.driveCs; dsimp only; split <;> rfl
@[simp] theorem driveCs_engRx2 (a e : Bool) (s : State) :
    (s.driveCs a e).engRx2 = s.engRx2 := by
  unfold State.driveCs; dsimp only; split <;> rfl
@[simp] theorem driveCs_engCs (a e : Bool) (s : State) :
    (s.driveCs a e).engCs = e := by
  unfold State.driveCs; dsimp only; split <;> rfl
@[simp] theorem driveCs_en (a e : Bool) (s : State) :
    (s.driveCs a e).en = s.en := by
  unfold State.driveCs; dsimp only; split <;> rfl
@[simp] theorem driveCs_bsy (a e : Bool) (s : State) :
    (s.driveCs a e).bsy = s.bsy := by
  unfold State.driveCs; dsimp only; split <;> rfl

/-! ### State.advance -/

@[simp] theorem advance_clkOk (s : State) : (s.advance).clkOk = s.clkOk := rfl
@[simp] theorem advance_started (s : State) : (s.advance).started = s.started := rfl
@[simp] theorem advance_sched (s : State) : (s.advance).sched = s.sched := rfl
@[simp] theorem advance_host (s : State) : (s.advance).host = s.host := rfl
@[simp] theorem advance_misoFeed (s : State) : (s.advance).misoFeed = s.misoFeed := rfl
@[simp] theorem advance_ctrl (s : State) : (s.advance).ctrl = s.ctrl := rfl
@[simp] theorem advance_rxne (s : State) : (s.advance).rxne = s.rxne := rfl
@[simp] theorem advance_txe (s : State) : (s.advance).txe = s.txe := rfl
@[simp] theorem advance_ovr (s : State) : (s.advance).ovr = s.ovr := rfl
@[simp] theorem advance_ebusy (s : State) : (s.advance).ebusy = s.ebusy := rfl
@[simp] theorem advance_done (s : State) : (s.advance).done = s.done := rfl
@[simp] theorem advance_idok (s : State) : (s.advance).idok = s.idok := rfl
@[simp] theorem advance_errCmd (s : State) : (s.advance).errCmd = s.errCmd := rfl
@[simp] theorem advance_errBusy (s : State) : (s.advance).errBusy = s.errBusy := rfl
@[simp] theorem advance_errCfg (s : State) : (s.advance).errCfg = s.errCfg := rfl
@[simp] theorem advance_errTxovw (s : State) : (s.advance).errTxovw = s.errTxovw := rfl
@[simp] theorem advance_txbuf (s : State) : (s.advance).txbuf = s.txbuf := rfl
@[simp] theorem advance_shActive (s : State) : (s.advance).shActive = s.shActive := rfl
@[simp] theorem advance_shift (s : State) : (s.advance).shift = s.shift := rfl
@[simp] theorem advance_rxbuf (s : State) : (s.advance).rxbuf = s.rxbuf := rfl
@[simp] theorem advance_csAssert (s : State) : (s.advance).csAssert = s.csAssert := rfl
@[simp] theorem advance_cmd (s : State) : (s.advance).cmd = s.cmd := rfl
@[simp] theorem advance_rdata (s : State) : (s.advance).rdata = s.rdata := rfl
@[simp] theorem advance_press (s : State) : (s.advance).press = s.press := rfl
@[simp] theorem advance_engOps (s : State) : (s.advance).engOps = s.engOps := rfl
@[simp] theorem advance_engIdx (s : State) : (s.advance).engIdx = s.engIdx + 1 := rfl
@[simp] theorem advance_engCmd (s : State) : (s.advance).engCmd = s.engCmd := rfl
@[simp] theorem advance_engRx0 (s : State) : (s.advance).engRx0 = s.engRx0 := rfl
@[simp] theorem advance_engRx1 (s : State) : (s.advance).engRx1 = s.engRx1 := rfl
@[simp] theorem advance_engRx2 (s : State) : (s.advance).engRx2 = s.engRx2 := rfl
@[simp] theorem advance_engCs (s : State) : (s.advance).engCs = s.engCs := rfl
@[simp] theorem advance_history (s : State) : (s.advance).history = s.history := rfl
@[simp] theorem advance_en (s : State) :
    (s.advance).en = s.en := rfl
@[simp] theorem advance_csN (s : State) :
    (s.advance).csN = s.csN := rfl
@[simp] theorem advance_bsy (s : State) :
    (s.advance).bsy = s.bsy := rfl

/-! ### State.setRx -/

@[simp] theorem setRx_clkOk (k : Fin 3) (r : Byte) (s : State) :
    (s.setRx k r).clkOk = s.clkOk := by
  unfold State.setRx; split <;> rfl
@[simp] theorem setRx_started (k : Fin 3) (r : Byte) (s : State) :
    (s.setRx k r).started = s.started := by
  unfold State.setRx; split <;> rfl
@[simp] theorem setRx_sched (k : Fin 3) (r : Byte) (s : State) :
    (s.setRx k r).sched = s.sched := by
  unfold State.setRx; split <;> rfl
@[simp] theorem setRx_host (k : Fin 3) (r : Byte) (s : State) :
    (s.setRx k r).host = s.host := by
  unfold State.setRx; split <;> rfl
@[simp] theorem setRx_misoFeed (k : Fin 3) (r : Byte) (s : State) :
    (s.setRx k r).misoFeed = s.misoFeed := by
  unfold State.setRx; split <;> rfl
@[simp] theorem setRx_ctrl (k : Fin 3) (r : Byte) (s : State) :
    (s.setRx k r).ctrl = s.ctrl := by
  unfold State.setRx; split <;> rfl
@[simp] theorem setRx_rxne (k : Fin 3) (r : Byte) (s : State) :
    (s.setRx k r).rxne = s.rxne := by
  unfold State.setRx; split <;> rfl
@[simp] theorem setRx_txe (k : Fin 3) (r : Byte) (s : State) :
    (s.setRx k r).txe = s.txe := by
  unfold State.setRx; split <;> rfl
@[simp] theorem setRx_ovr (k : Fin 3) (r : Byte) (s : State) :
    (s.setRx k r).ovr = s.ovr := by
  unfold State.setRx; split <;> rfl
@[simp] theorem setRx_ebusy (k : Fin 3) (r : Byte) (s : State) :
    (s.setRx k r).ebusy = s.ebusy := by
  unfold State.setRx; split <;> rfl
@[simp] theorem setRx_done (k : Fin 3) (r : Byte) (s : State) :
    (s.setRx k r).done = s.done := by
  unfold State.setRx; split <;> rfl
@[simp] theorem setRx_idok (k : Fin 3) (r : Byte) (s : State) :
    (s.setRx k r).idok = s.idok := by
  unfold State.setRx; split <;> rfl
@[simp] theorem setRx_errCmd (k : Fin 3) (r : Byte) (s : State) :
    (s.setRx k r).errCmd = s.errCmd := by
  unfold State.setRx; split <;> rfl
@[simp] theorem setRx_errBusy (k : Fin 3) (r : Byte) (s : State) :
    (s.setRx k r).errBusy = s.errBusy := by
  unfold State.setRx; split <;> rfl
@[simp] theorem setRx_errCfg (k : Fin 3) (r : Byte) (s : State) :
    (s.setRx k r).errCfg = s.errCfg := by
  unfold State.setRx; split <;> rfl
@[simp] theorem setRx_errTxovw (k : Fin 3) (r : Byte) (s : State) :
    (s.setRx k r).errTxovw = s.errTxovw := by
  unfold State.setRx; split <;> rfl
@[simp] theorem setRx_txbuf (k : Fin 3) (r : Byte) (s : State) :
    (s.setRx k r).txbuf = s.txbuf := by
  unfold State.setRx; split <;> rfl
@[simp] theorem setRx_shActive (k : Fin 3) (r : Byte) (s : State) :
    (s.setRx k r).shActive = s.shActive := by
  unfold State.setRx; split <;> rfl
@[simp] theorem setRx_shift (k : Fin 3) (r : Byte) (s : State) :
    (s.setRx k r).shift = s.shift := by
  unfold State.setRx; split <;> rfl
@[simp] theorem setRx_rxbuf (k : Fin 3) (r : Byte) (s : State) :
    (s.setRx k r).rxbuf = s.rxbuf := by
  unfold State.setRx; split <;> rfl
@[simp] theorem setRx_csAssert (k : Fin 3) (r : Byte) (s : State) :
    (s.setRx k r).csAssert = s.csAssert := by
  unfold State.setRx; split <;> rfl
@[simp] theorem setRx_cmd (k : Fin 3) (r : Byte) (s : State) :
    (s.setRx k r).cmd = s.cmd := by
  unfold State.setRx; split <;> rfl
@[simp] theorem setRx_rdata (k : Fin 3) (r : Byte) (s : State) :
    (s.setRx k r).rdata = s.rdata := by
  unfold State.setRx; split <;> rfl
@[simp] theorem setRx_press (k : Fin 3) (r : Byte) (s : State) :
    (s.setRx k r).press = s.press := by
  unfold State.setRx; split <;> rfl
@[simp] theorem setRx_engOps (k : Fin 3) (r : Byte) (s : State) :
    (s.setRx k r).engOps = s.engOps := by
  unfold State.setRx; split <;> rfl
@[simp] theorem setRx_engIdx (k : Fin 3) (r : Byte) (s : State) :
    (s.setRx k r).engIdx = s.engIdx := by
  unfold State.setRx; split <;> rfl
@[simp] theorem setRx_engCmd (k : Fin 3) (r : Byte) (s : State) :
    (s.setRx k r).engCmd = s.engCmd := by
  unfold State.setRx; split <;> rfl
@[simp] theorem setRx_engRx0 (k : Fin 3) (r : Byte) (s : State) :
    (s.setRx k r).engRx0 = if k = 0 then r else s.engRx0 := by
  unfold State.setRx; split <;> rfl
@[simp] theorem setRx_engRx1 (k : Fin 3) (r : Byte) (s : State) :
    (s.setRx k r).engRx1 = if k = 1 then r else s.engRx1 := by
  unfold State.setRx; split <;> rfl
@[simp] theorem setRx_engRx2 (k : Fin 3) (r : Byte) (s : State) :
    (s.setRx k r).engRx2 = if k = 2 then r else s.engRx2 := by
  unfold State.setRx; split <;> rfl
@[simp] theorem setRx_engCs (k : Fin 3) (r : Byte) (s : State) :
    (s.setRx k r).engCs = s.engCs := by
  unfold State.setRx; split <;> rfl
@[simp] theorem setRx_history (k : Fin 3) (r : Byte) (s : State) :
    (s.setRx k r).history = s.history := by
  unfold State.setRx; split <;> rfl
@[simp] theorem setRx_en (k : Fin 3) (r : Byte) (s : State) :
    (s.setRx k r).en = s.en := by
  unfold State.setRx; split <;> rfl
@[simp] theorem setRx_csN (k : Fin 3) (r : Byte) (s : State) :
    (s.setRx k r).csN = s.csN := by
  unfold State.setRx; split <;> rfl
@[simp] theorem setRx_bsy (k : Fin 3) (r : Byte) (s : State) :
    (s.setRx k r).bsy = s.bsy := by
  unfold State.setRx; split <;> rfl

/-! ### State.finish -/

@[simp] theorem finish_clkOk (s : State) : (s.finish).clkOk = s.clkOk := rfl
@[simp] theorem finish_started (s : State) : (s.finish).started = s.started := rfl
@[simp] theorem finish_sched (s : State) : (s.finish).sched = s.sched := rfl
@[simp] theorem finish_host (s : State) : (s.finish).host = s.host := rfl
@[simp] theorem finish_misoFeed (s : State) : (s.finish).misoFeed = s.misoFeed := rfl
@[simp] theorem finish_ctrl (s : State) : (s.finish).ctrl = s.ctrl := rfl
@[simp] theorem finish_rxne (s : State) : (s.finish).rxne = s.rxne := rfl
@[simp] theorem finish_txe (s : State) : (s.finish).txe = s.txe := rfl
@[simp] theorem finish_ovr (s : State) : (s.finish).ovr = s.ovr := rfl
@[simp] theorem finish_ebusy (s : State) : (s.finish).ebusy = false := rfl
@[simp] theorem finish_done (s : State) : (s.finish).done = true := rfl
@[simp] theorem finish_idok (s : State) : (s.finish).idok = s.idok := rfl
@[simp] theorem finish_errCmd (s : State) : (s.finish).errCmd = s.errCmd := rfl
@[simp] theorem finish_errBusy (s : State) : (s.finish).errBusy = s.errBusy := rfl
@[simp] theorem finish_errCfg (s : State) : (s.finish).errCfg = s.errCfg := rfl
@[simp] theorem finish_errTxovw (s : State) : (s.finish).errTxovw = s.errTxovw := rfl
@[simp] theorem finish_txbuf (s : State) : (s.finish).txbuf = s.txbuf := rfl
@[simp] theorem finish_shActive (s : State) : (s.finish).shActive = s.shActive := rfl
@[simp] theorem finish_shift (s : State) : (s.finish).shift = s.shift := rfl
@[simp] theorem finish_rxbuf (s : State) : (s.finish).rxbuf = s.rxbuf := rfl
@[simp] theorem finish_csAssert (s : State) : (s.finish).csAssert = s.csAssert := rfl
@[simp] theorem finish_cmd (s : State) : (s.finish).cmd = s.cmd := rfl
@[simp] theorem finish_rdata (s : State) : (s.finish).rdata = s.rdata := rfl
@[simp] theorem finish_press (s : State) : (s.finish).press = s.press := rfl
@[simp] theorem finish_engOps (s : State) : (s.finish).engOps = [] := rfl
@[simp] theorem finish_engIdx (s : State) : (s.finish).engIdx = 0 := rfl
@[simp] theorem finish_engCmd (s : State) : (s.finish).engCmd = s.engCmd := rfl
@[simp] theorem finish_engRx0 (s : State) : (s.finish).engRx0 = s.engRx0 := rfl
@[simp] theorem finish_engRx1 (s : State) : (s.finish).engRx1 = s.engRx1 := rfl
@[simp] theorem finish_engRx2 (s : State) : (s.finish).engRx2 = s.engRx2 := rfl
@[simp] theorem finish_engCs (s : State) : (s.finish).engCs = s.engCs := rfl
@[simp] theorem finish_history (s : State) : (s.finish).history = s.history := rfl
@[simp] theorem finish_en (s : State) :
    (s.finish).en = s.en := rfl
@[simp] theorem finish_csN (s : State) :
    (s.finish).csN = s.csN := rfl

/-! ### State.startCommand -/

@[simp] theorem startCommand_clkOk (w : Word) (s : State) :
    (s.startCommand w).clkOk = s.clkOk := rfl
@[simp] theorem startCommand_started (w : Word) (s : State) :
    (s.startCommand w).started = s.started := rfl
@[simp] theorem startCommand_sched (w : Word) (s : State) :
    (s.startCommand w).sched = s.sched := rfl
@[simp] theorem startCommand_host (w : Word) (s : State) : (s.startCommand w).host = s.host := rfl
@[simp] theorem startCommand_misoFeed (w : Word) (s : State) :
    (s.startCommand w).misoFeed = s.misoFeed := rfl
@[simp] theorem startCommand_ctrl (w : Word) (s : State) : (s.startCommand w).ctrl = s.ctrl := rfl
@[simp] theorem startCommand_rxne (w : Word) (s : State) : (s.startCommand w).rxne = s.rxne := rfl
@[simp] theorem startCommand_txe (w : Word) (s : State) : (s.startCommand w).txe = s.txe := rfl
@[simp] theorem startCommand_ovr (w : Word) (s : State) : (s.startCommand w).ovr = s.ovr := rfl
@[simp] theorem startCommand_ebusy (w : Word) (s : State) : (s.startCommand w).ebusy = true := rfl
@[simp] theorem startCommand_done (w : Word) (s : State) : (s.startCommand w).done = false := rfl
@[simp] theorem startCommand_idok (w : Word) (s : State) : (s.startCommand w).idok = s.idok := rfl
@[simp] theorem startCommand_errCmd (w : Word) (s : State) :
    (s.startCommand w).errCmd = s.errCmd := rfl
@[simp] theorem startCommand_errBusy (w : Word) (s : State) :
    (s.startCommand w).errBusy = s.errBusy := rfl
@[simp] theorem startCommand_errCfg (w : Word) (s : State) :
    (s.startCommand w).errCfg = s.errCfg := rfl
@[simp] theorem startCommand_errTxovw (w : Word) (s : State) :
    (s.startCommand w).errTxovw = s.errTxovw := rfl
@[simp] theorem startCommand_txbuf (w : Word) (s : State) :
    (s.startCommand w).txbuf = s.txbuf := rfl
@[simp] theorem startCommand_shActive (w : Word) (s : State) :
    (s.startCommand w).shActive = s.shActive := rfl
@[simp] theorem startCommand_shift (w : Word) (s : State) :
    (s.startCommand w).shift = s.shift := rfl
@[simp] theorem startCommand_rxbuf (w : Word) (s : State) :
    (s.startCommand w).rxbuf = s.rxbuf := rfl
@[simp] theorem startCommand_csAssert (w : Word) (s : State) :
    (s.startCommand w).csAssert = s.csAssert := rfl
@[simp] theorem startCommand_cmd (w : Word) (s : State) : (s.startCommand w).cmd = w := rfl
@[simp] theorem startCommand_rdata (w : Word) (s : State) :
    (s.startCommand w).rdata = s.rdata := rfl
@[simp] theorem startCommand_press (w : Word) (s : State) :
    (s.startCommand w).press = s.press := rfl
@[simp] theorem startCommand_engOps (w : Word) (s : State) :
    (s.startCommand w).engOps = expand w := rfl
@[simp] theorem startCommand_engIdx (w : Word) (s : State) : (s.startCommand w).engIdx = 0 := rfl
@[simp] theorem startCommand_engCmd (w : Word) (s : State) : (s.startCommand w).engCmd = w := rfl
@[simp] theorem startCommand_engRx0 (w : Word) (s : State) : (s.startCommand w).engRx0 = 0 := rfl
@[simp] theorem startCommand_engRx1 (w : Word) (s : State) : (s.startCommand w).engRx1 = 0 := rfl
@[simp] theorem startCommand_engRx2 (w : Word) (s : State) : (s.startCommand w).engRx2 = 0 := rfl
@[simp] theorem startCommand_engCs (w : Word) (s : State) :
    (s.startCommand w).engCs = s.engCs := rfl
@[simp] theorem startCommand_history (w : Word) (s : State) :
    (s.startCommand w).history = s.history := rfl
@[simp] theorem startCommand_en (w : Word) (s : State) :
    (s.startCommand w).en = s.en := rfl
@[simp] theorem startCommand_csN (w : Word) (s : State) :
    (s.startCommand w).csN = s.csN := rfl

/-! ### State.beginStep -/

@[simp] theorem beginStep_clkOk (s : State) : (s.beginStep).clkOk = s.clkOk := rfl
@[simp] theorem beginStep_started (s : State) : (s.beginStep).started = true := rfl
@[simp] theorem beginStep_sched (s : State) : (s.beginStep).sched = s.sched.tail := rfl
@[simp] theorem beginStep_host (s : State) : (s.beginStep).host = s.host := rfl
@[simp] theorem beginStep_misoFeed (s : State) : (s.beginStep).misoFeed = s.misoFeed := rfl
@[simp] theorem beginStep_ctrl (s : State) : (s.beginStep).ctrl = s.ctrl := rfl
@[simp] theorem beginStep_rxne (s : State) : (s.beginStep).rxne = s.rxne := rfl
@[simp] theorem beginStep_txe (s : State) : (s.beginStep).txe = s.txe := rfl
@[simp] theorem beginStep_ovr (s : State) : (s.beginStep).ovr = s.ovr := rfl
@[simp] theorem beginStep_ebusy (s : State) : (s.beginStep).ebusy = s.ebusy := rfl
@[simp] theorem beginStep_done (s : State) : (s.beginStep).done = s.done := rfl
@[simp] theorem beginStep_idok (s : State) : (s.beginStep).idok = s.idok := rfl
@[simp] theorem beginStep_errCmd (s : State) : (s.beginStep).errCmd = s.errCmd := rfl
@[simp] theorem beginStep_errBusy (s : State) : (s.beginStep).errBusy = s.errBusy := rfl
@[simp] theorem beginStep_errCfg (s : State) : (s.beginStep).errCfg = s.errCfg := rfl
@[simp] theorem beginStep_errTxovw (s : State) : (s.beginStep).errTxovw = s.errTxovw := rfl
@[simp] theorem beginStep_txbuf (s : State) : (s.beginStep).txbuf = s.txbuf := rfl
@[simp] theorem beginStep_shActive (s : State) : (s.beginStep).shActive = s.shActive := rfl
@[simp] theorem beginStep_shift (s : State) : (s.beginStep).shift = s.shift := rfl
@[simp] theorem beginStep_rxbuf (s : State) : (s.beginStep).rxbuf = s.rxbuf := rfl
@[simp] theorem beginStep_csAssert (s : State) : (s.beginStep).csAssert = s.csAssert := rfl
@[simp] theorem beginStep_cmd (s : State) : (s.beginStep).cmd = s.cmd := rfl
@[simp] theorem beginStep_rdata (s : State) : (s.beginStep).rdata = s.rdata := rfl
@[simp] theorem beginStep_press (s : State) : (s.beginStep).press = s.press := rfl
@[simp] theorem beginStep_engOps (s : State) : (s.beginStep).engOps = s.engOps := rfl
@[simp] theorem beginStep_engIdx (s : State) : (s.beginStep).engIdx = s.engIdx := rfl
@[simp] theorem beginStep_engCmd (s : State) : (s.beginStep).engCmd = s.engCmd := rfl
@[simp] theorem beginStep_engRx0 (s : State) : (s.beginStep).engRx0 = s.engRx0 := rfl
@[simp] theorem beginStep_engRx1 (s : State) : (s.beginStep).engRx1 = s.engRx1 := rfl
@[simp] theorem beginStep_engRx2 (s : State) : (s.beginStep).engRx2 = s.engRx2 := rfl
@[simp] theorem beginStep_engCs (s : State) : (s.beginStep).engCs = s.engCs := rfl
@[simp] theorem beginStep_history (s : State) : (s.beginStep).history = s.history := rfl
@[simp] theorem beginStep_en (s : State) :
    (s.beginStep).en = s.en := rfl
@[simp] theorem beginStep_csN (s : State) :
    (s.beginStep).csN = s.csN := rfl
@[simp] theorem beginStep_bsy (s : State) :
    (s.beginStep).bsy = s.bsy := rfl

/-! ### State.setErrCmd -/

@[simp] theorem setErrCmd_clkOk (s : State) : (s.setErrCmd).clkOk = s.clkOk := rfl
@[simp] theorem setErrCmd_started (s : State) : (s.setErrCmd).started = s.started := rfl
@[simp] theorem setErrCmd_sched (s : State) : (s.setErrCmd).sched = s.sched := rfl
@[simp] theorem setErrCmd_host (s : State) : (s.setErrCmd).host = s.host := rfl
@[simp] theorem setErrCmd_misoFeed (s : State) : (s.setErrCmd).misoFeed = s.misoFeed := rfl
@[simp] theorem setErrCmd_ctrl (s : State) : (s.setErrCmd).ctrl = s.ctrl := rfl
@[simp] theorem setErrCmd_rxne (s : State) : (s.setErrCmd).rxne = s.rxne := rfl
@[simp] theorem setErrCmd_txe (s : State) : (s.setErrCmd).txe = s.txe := rfl
@[simp] theorem setErrCmd_ovr (s : State) : (s.setErrCmd).ovr = s.ovr := rfl
@[simp] theorem setErrCmd_ebusy (s : State) : (s.setErrCmd).ebusy = s.ebusy := rfl
@[simp] theorem setErrCmd_done (s : State) : (s.setErrCmd).done = s.done := rfl
@[simp] theorem setErrCmd_idok (s : State) : (s.setErrCmd).idok = s.idok := rfl
@[simp] theorem setErrCmd_errCmd (s : State) : (s.setErrCmd).errCmd = true := rfl
@[simp] theorem setErrCmd_errBusy (s : State) : (s.setErrCmd).errBusy = s.errBusy := rfl
@[simp] theorem setErrCmd_errCfg (s : State) : (s.setErrCmd).errCfg = s.errCfg := rfl
@[simp] theorem setErrCmd_errTxovw (s : State) : (s.setErrCmd).errTxovw = s.errTxovw := rfl
@[simp] theorem setErrCmd_txbuf (s : State) : (s.setErrCmd).txbuf = s.txbuf := rfl
@[simp] theorem setErrCmd_shActive (s : State) : (s.setErrCmd).shActive = s.shActive := rfl
@[simp] theorem setErrCmd_shift (s : State) : (s.setErrCmd).shift = s.shift := rfl
@[simp] theorem setErrCmd_rxbuf (s : State) : (s.setErrCmd).rxbuf = s.rxbuf := rfl
@[simp] theorem setErrCmd_csAssert (s : State) : (s.setErrCmd).csAssert = s.csAssert := rfl
@[simp] theorem setErrCmd_cmd (s : State) : (s.setErrCmd).cmd = s.cmd := rfl
@[simp] theorem setErrCmd_rdata (s : State) : (s.setErrCmd).rdata = s.rdata := rfl
@[simp] theorem setErrCmd_press (s : State) : (s.setErrCmd).press = s.press := rfl
@[simp] theorem setErrCmd_engOps (s : State) : (s.setErrCmd).engOps = s.engOps := rfl
@[simp] theorem setErrCmd_engIdx (s : State) : (s.setErrCmd).engIdx = s.engIdx := rfl
@[simp] theorem setErrCmd_engCmd (s : State) : (s.setErrCmd).engCmd = s.engCmd := rfl
@[simp] theorem setErrCmd_engRx0 (s : State) : (s.setErrCmd).engRx0 = s.engRx0 := rfl
@[simp] theorem setErrCmd_engRx1 (s : State) : (s.setErrCmd).engRx1 = s.engRx1 := rfl
@[simp] theorem setErrCmd_engRx2 (s : State) : (s.setErrCmd).engRx2 = s.engRx2 := rfl
@[simp] theorem setErrCmd_engCs (s : State) : (s.setErrCmd).engCs = s.engCs := rfl
@[simp] theorem setErrCmd_history (s : State) : (s.setErrCmd).history = s.history := rfl
@[simp] theorem setErrCmd_en (s : State) :
    (s.setErrCmd).en = s.en := rfl
@[simp] theorem setErrCmd_csN (s : State) :
    (s.setErrCmd).csN = s.csN := rfl
@[simp] theorem setErrCmd_bsy (s : State) :
    (s.setErrCmd).bsy = s.bsy := rfl

/-! ### State.setErrBusy -/

@[simp] theorem setErrBusy_clkOk (s : State) : (s.setErrBusy).clkOk = s.clkOk := rfl
@[simp] theorem setErrBusy_started (s : State) : (s.setErrBusy).started = s.started := rfl
@[simp] theorem setErrBusy_sched (s : State) : (s.setErrBusy).sched = s.sched := rfl
@[simp] theorem setErrBusy_host (s : State) : (s.setErrBusy).host = s.host := rfl
@[simp] theorem setErrBusy_misoFeed (s : State) : (s.setErrBusy).misoFeed = s.misoFeed := rfl
@[simp] theorem setErrBusy_ctrl (s : State) : (s.setErrBusy).ctrl = s.ctrl := rfl
@[simp] theorem setErrBusy_rxne (s : State) : (s.setErrBusy).rxne = s.rxne := rfl
@[simp] theorem setErrBusy_txe (s : State) : (s.setErrBusy).txe = s.txe := rfl
@[simp] theorem setErrBusy_ovr (s : State) : (s.setErrBusy).ovr = s.ovr := rfl
@[simp] theorem setErrBusy_ebusy (s : State) : (s.setErrBusy).ebusy = s.ebusy := rfl
@[simp] theorem setErrBusy_done (s : State) : (s.setErrBusy).done = s.done := rfl
@[simp] theorem setErrBusy_idok (s : State) : (s.setErrBusy).idok = s.idok := rfl
@[simp] theorem setErrBusy_errCmd (s : State) : (s.setErrBusy).errCmd = s.errCmd := rfl
@[simp] theorem setErrBusy_errBusy (s : State) : (s.setErrBusy).errBusy = true := rfl
@[simp] theorem setErrBusy_errCfg (s : State) : (s.setErrBusy).errCfg = s.errCfg := rfl
@[simp] theorem setErrBusy_errTxovw (s : State) : (s.setErrBusy).errTxovw = s.errTxovw := rfl
@[simp] theorem setErrBusy_txbuf (s : State) : (s.setErrBusy).txbuf = s.txbuf := rfl
@[simp] theorem setErrBusy_shActive (s : State) : (s.setErrBusy).shActive = s.shActive := rfl
@[simp] theorem setErrBusy_shift (s : State) : (s.setErrBusy).shift = s.shift := rfl
@[simp] theorem setErrBusy_rxbuf (s : State) : (s.setErrBusy).rxbuf = s.rxbuf := rfl
@[simp] theorem setErrBusy_csAssert (s : State) : (s.setErrBusy).csAssert = s.csAssert := rfl
@[simp] theorem setErrBusy_cmd (s : State) : (s.setErrBusy).cmd = s.cmd := rfl
@[simp] theorem setErrBusy_rdata (s : State) : (s.setErrBusy).rdata = s.rdata := rfl
@[simp] theorem setErrBusy_press (s : State) : (s.setErrBusy).press = s.press := rfl
@[simp] theorem setErrBusy_engOps (s : State) : (s.setErrBusy).engOps = s.engOps := rfl
@[simp] theorem setErrBusy_engIdx (s : State) : (s.setErrBusy).engIdx = s.engIdx := rfl
@[simp] theorem setErrBusy_engCmd (s : State) : (s.setErrBusy).engCmd = s.engCmd := rfl
@[simp] theorem setErrBusy_engRx0 (s : State) : (s.setErrBusy).engRx0 = s.engRx0 := rfl
@[simp] theorem setErrBusy_engRx1 (s : State) : (s.setErrBusy).engRx1 = s.engRx1 := rfl
@[simp] theorem setErrBusy_engRx2 (s : State) : (s.setErrBusy).engRx2 = s.engRx2 := rfl
@[simp] theorem setErrBusy_engCs (s : State) : (s.setErrBusy).engCs = s.engCs := rfl
@[simp] theorem setErrBusy_history (s : State) : (s.setErrBusy).history = s.history := rfl
@[simp] theorem setErrBusy_en (s : State) :
    (s.setErrBusy).en = s.en := rfl
@[simp] theorem setErrBusy_csN (s : State) :
    (s.setErrBusy).csN = s.csN := rfl
@[simp] theorem setErrBusy_bsy (s : State) :
    (s.setErrBusy).bsy = s.bsy := rfl

/-! ### State.setErrCfg -/

@[simp] theorem setErrCfg_clkOk (s : State) : (s.setErrCfg).clkOk = s.clkOk := rfl
@[simp] theorem setErrCfg_started (s : State) : (s.setErrCfg).started = s.started := rfl
@[simp] theorem setErrCfg_sched (s : State) : (s.setErrCfg).sched = s.sched := rfl
@[simp] theorem setErrCfg_host (s : State) : (s.setErrCfg).host = s.host := rfl
@[simp] theorem setErrCfg_misoFeed (s : State) : (s.setErrCfg).misoFeed = s.misoFeed := rfl
@[simp] theorem setErrCfg_ctrl (s : State) : (s.setErrCfg).ctrl = s.ctrl := rfl
@[simp] theorem setErrCfg_rxne (s : State) : (s.setErrCfg).rxne = s.rxne := rfl
@[simp] theorem setErrCfg_txe (s : State) : (s.setErrCfg).txe = s.txe := rfl
@[simp] theorem setErrCfg_ovr (s : State) : (s.setErrCfg).ovr = s.ovr := rfl
@[simp] theorem setErrCfg_ebusy (s : State) : (s.setErrCfg).ebusy = s.ebusy := rfl
@[simp] theorem setErrCfg_done (s : State) : (s.setErrCfg).done = s.done := rfl
@[simp] theorem setErrCfg_idok (s : State) : (s.setErrCfg).idok = s.idok := rfl
@[simp] theorem setErrCfg_errCmd (s : State) : (s.setErrCfg).errCmd = s.errCmd := rfl
@[simp] theorem setErrCfg_errBusy (s : State) : (s.setErrCfg).errBusy = s.errBusy := rfl
@[simp] theorem setErrCfg_errCfg (s : State) : (s.setErrCfg).errCfg = true := rfl
@[simp] theorem setErrCfg_errTxovw (s : State) : (s.setErrCfg).errTxovw = s.errTxovw := rfl
@[simp] theorem setErrCfg_txbuf (s : State) : (s.setErrCfg).txbuf = s.txbuf := rfl
@[simp] theorem setErrCfg_shActive (s : State) : (s.setErrCfg).shActive = s.shActive := rfl
@[simp] theorem setErrCfg_shift (s : State) : (s.setErrCfg).shift = s.shift := rfl
@[simp] theorem setErrCfg_rxbuf (s : State) : (s.setErrCfg).rxbuf = s.rxbuf := rfl
@[simp] theorem setErrCfg_csAssert (s : State) : (s.setErrCfg).csAssert = s.csAssert := rfl
@[simp] theorem setErrCfg_cmd (s : State) : (s.setErrCfg).cmd = s.cmd := rfl
@[simp] theorem setErrCfg_rdata (s : State) : (s.setErrCfg).rdata = s.rdata := rfl
@[simp] theorem setErrCfg_press (s : State) : (s.setErrCfg).press = s.press := rfl
@[simp] theorem setErrCfg_engOps (s : State) : (s.setErrCfg).engOps = s.engOps := rfl
@[simp] theorem setErrCfg_engIdx (s : State) : (s.setErrCfg).engIdx = s.engIdx := rfl
@[simp] theorem setErrCfg_engCmd (s : State) : (s.setErrCfg).engCmd = s.engCmd := rfl
@[simp] theorem setErrCfg_engRx0 (s : State) : (s.setErrCfg).engRx0 = s.engRx0 := rfl
@[simp] theorem setErrCfg_engRx1 (s : State) : (s.setErrCfg).engRx1 = s.engRx1 := rfl
@[simp] theorem setErrCfg_engRx2 (s : State) : (s.setErrCfg).engRx2 = s.engRx2 := rfl
@[simp] theorem setErrCfg_engCs (s : State) : (s.setErrCfg).engCs = s.engCs := rfl
@[simp] theorem setErrCfg_history (s : State) : (s.setErrCfg).history = s.history := rfl
@[simp] theorem setErrCfg_en (s : State) :
    (s.setErrCfg).en = s.en := rfl
@[simp] theorem setErrCfg_csN (s : State) :
    (s.setErrCfg).csN = s.csN := rfl
@[simp] theorem setErrCfg_bsy (s : State) :
    (s.setErrCfg).bsy = s.bsy := rfl

/-! ### State.setErrTxovw -/

@[simp] theorem setErrTxovw_clkOk (s : State) : (s.setErrTxovw).clkOk = s.clkOk := rfl
@[simp] theorem setErrTxovw_started (s : State) : (s.setErrTxovw).started = s.started := rfl
@[simp] theorem setErrTxovw_sched (s : State) : (s.setErrTxovw).sched = s.sched := rfl
@[simp] theorem setErrTxovw_host (s : State) : (s.setErrTxovw).host = s.host := rfl
@[simp] theorem setErrTxovw_misoFeed (s : State) : (s.setErrTxovw).misoFeed = s.misoFeed := rfl
@[simp] theorem setErrTxovw_ctrl (s : State) : (s.setErrTxovw).ctrl = s.ctrl := rfl
@[simp] theorem setErrTxovw_rxne (s : State) : (s.setErrTxovw).rxne = s.rxne := rfl
@[simp] theorem setErrTxovw_txe (s : State) : (s.setErrTxovw).txe = s.txe := rfl
@[simp] theorem setErrTxovw_ovr (s : State) : (s.setErrTxovw).ovr = s.ovr := rfl
@[simp] theorem setErrTxovw_ebusy (s : State) : (s.setErrTxovw).ebusy = s.ebusy := rfl
@[simp] theorem setErrTxovw_done (s : State) : (s.setErrTxovw).done = s.done := rfl
@[simp] theorem setErrTxovw_idok (s : State) : (s.setErrTxovw).idok = s.idok := rfl
@[simp] theorem setErrTxovw_errCmd (s : State) : (s.setErrTxovw).errCmd = s.errCmd := rfl
@[simp] theorem setErrTxovw_errBusy (s : State) : (s.setErrTxovw).errBusy = s.errBusy := rfl
@[simp] theorem setErrTxovw_errCfg (s : State) : (s.setErrTxovw).errCfg = s.errCfg := rfl
@[simp] theorem setErrTxovw_errTxovw (s : State) : (s.setErrTxovw).errTxovw = true := rfl
@[simp] theorem setErrTxovw_txbuf (s : State) : (s.setErrTxovw).txbuf = s.txbuf := rfl
@[simp] theorem setErrTxovw_shActive (s : State) : (s.setErrTxovw).shActive = s.shActive := rfl
@[simp] theorem setErrTxovw_shift (s : State) : (s.setErrTxovw).shift = s.shift := rfl
@[simp] theorem setErrTxovw_rxbuf (s : State) : (s.setErrTxovw).rxbuf = s.rxbuf := rfl
@[simp] theorem setErrTxovw_csAssert (s : State) : (s.setErrTxovw).csAssert = s.csAssert := rfl
@[simp] theorem setErrTxovw_cmd (s : State) : (s.setErrTxovw).cmd = s.cmd := rfl
@[simp] theorem setErrTxovw_rdata (s : State) : (s.setErrTxovw).rdata = s.rdata := rfl
@[simp] theorem setErrTxovw_press (s : State) : (s.setErrTxovw).press = s.press := rfl
@[simp] theorem setErrTxovw_engOps (s : State) : (s.setErrTxovw).engOps = s.engOps := rfl
@[simp] theorem setErrTxovw_engIdx (s : State) : (s.setErrTxovw).engIdx = s.engIdx := rfl
@[simp] theorem setErrTxovw_engCmd (s : State) : (s.setErrTxovw).engCmd = s.engCmd := rfl
@[simp] theorem setErrTxovw_engRx0 (s : State) : (s.setErrTxovw).engRx0 = s.engRx0 := rfl
@[simp] theorem setErrTxovw_engRx1 (s : State) : (s.setErrTxovw).engRx1 = s.engRx1 := rfl
@[simp] theorem setErrTxovw_engRx2 (s : State) : (s.setErrTxovw).engRx2 = s.engRx2 := rfl
@[simp] theorem setErrTxovw_engCs (s : State) : (s.setErrTxovw).engCs = s.engCs := rfl
@[simp] theorem setErrTxovw_history (s : State) : (s.setErrTxovw).history = s.history := rfl
@[simp] theorem setErrTxovw_en (s : State) :
    (s.setErrTxovw).en = s.en := rfl
@[simp] theorem setErrTxovw_csN (s : State) :
    (s.setErrTxovw).csN = s.csN := rfl
@[simp] theorem setErrTxovw_bsy (s : State) :
    (s.setErrTxovw).bsy = s.bsy := rfl

end Sys2Proof.Machine
end

