-- ==== Sys2Proof/Laws/Ops.lean ====
section
/-! SUPPORT. What each shared operation can do, said once. -/

namespace Sys2Proof.Machine

/-! ### Host accesses -/

theorem hostRead_eq_next {r : Reg} {v : Word} {s t : State} :
    hostRead r v s = .next t ↔ s.clkOk = true ∧ t = s.record (.hr r.off v) := by
  unfold hostRead
  cases h : s.clkOk
  · simp
  · simpa using eq_comm

theorem hostWrite_eq_next {r : Reg} {v : Word} {effect : State → State} {s t : State} :
    hostWrite r v effect s = .next t ↔
      s.clkOk = true ∧ t = effect (s.record (.hw r.off v)) := by
  unfold hostWrite
  cases h : s.clkOk
  · simp
  · simpa using eq_comm

/-- An access either fails its checks or is its instruction. -/
theorem hostAccess_eq_next {a : Access} {s t : State} :
    hostAccess a s = .next t ↔ s.clkOk = true ∧ a.size = 4 ∧
      ∃ i, decodeBus (descriptor a.isWrite a.off) a.value = .ok i ∧ exec i s = .next t := by
  unfold hostAccess
  split
  · simp_all
  split
  · simp_all
  split <;> simp_all

/-! ### Chip-select and the exchange -/

/-- Chip-select moves with one CS event, or does not move. -/
theorem driveCs_cases (a e : Bool) (s : State) :
    (s.driveCs a e).csN = !(a || e) ∧
      (((s.driveCs a e).csN = s.csN ∧ (s.driveCs a e).history = s.history) ∨
       ((s.driveCs a e).csN ≠ s.csN ∧
        (s.driveCs a e).history = s.history ++ [.cs (!(a || e))])) := by
  unfold State.driveCs
  dsimp only
  split <;> simp_all [State.csN, State.record]

/-- The held answer is the next one, else the oracle's (00_scope.md R9). -/
@[simp] theorem answer_cons (s : State) (t r : Byte) (rest : List Byte)
    (h : s.misoFeed = r :: rest) : s.answer t = r := by
  simp [State.answer, h]

@[simp] theorem answer_nil (s : State) (t : Byte) (h : s.misoFeed = []) :
    s.answer t = Config.slaveAnswer s.history s.csN t := by
  simp [State.answer, h]

/-! ### The engine -/

/-- Result writes touch RDATA, PRESS and IDOK only. -/
def CommitFrame (commit : State → State) : Prop :=
  ∀ s, commit s =
    { s with rdata := (commit s).rdata, press := (commit s).press, idok := (commit s).idok }

/-- A command's meaning is one engine step of its word with result writes of its own. -/
theorem exec_command {i : Instr} {w : Word} (h : encode i = .cmd w) :
    ∃ commit, CommitFrame commit ∧ ∀ s, exec i s = engineStep w commit s := by
  cases i <;> simp only [encode, Reg.readEncoded, Reg.writeEncoded, Encoded.cmd.injEq,
    reduceCtorEq] at h <;> subst h
  · exact ⟨commitRead1, fun _ => rfl, fun _ => rfl⟩
  · exact ⟨commitReadn, fun _ => rfl, fun _ => rfl⟩
  · exact ⟨commitWrite, fun _ => rfl, fun _ => rfl⟩
  · exact ⟨commitInit, fun _ => rfl, fun _ => rfl⟩
  · exact ⟨commitReadp, fun _ => rfl, fun _ => rfl⟩

/-- The engine's micro-step: none, or the one of the operation it stands at. -/
theorem microStep_cases (commit : State → State) (s : State) :
    (engineEnabled s = false ∧ microStep commit s = s) ∨
    (engineEnabled s = true ∧ ∃ op, s.currentOp = some op ∧ s.clkOk = true ∧ s.ebusy = true ∧
      opEnabled s.en op = true ∧ microStep commit s = runOp commit s op) := by
  unfold microStep
  cases h : engineEnabled s with
  | false => simp
  | true =>
    right
    simp only [engineEnabled, Bool.and_eq_true] at h
    obtain ⟨⟨hc, hb⟩, ho⟩ := h
    cases hop : s.currentOp with
    | none => simp [hop] at ho
    | some op =>
      rw [hop] at ho
      exact ⟨rfl, op, rfl, hc, hb, ho, by simp⟩

/-- A command the decoder reads is one of the five, and its encoding is a command word. -/
theorem decodeCmd_command {w : Word} {i : Instr} (h : decodeCmd w = .ok i) :
    legal w = true ∧ ∃ u, encode i = .cmd u := by
  unfold decodeCmd at h
  split at h
  · next hl =>
    refine ⟨hl, ?_⟩
    split at h
    · cases h; exact ⟨_, rfl⟩
    split at h
    · cases h; exact ⟨_, rfl⟩
    split at h
    · cases h; exact ⟨_, rfl⟩
    split at h
    · cases h; exact ⟨_, rfl⟩
    cases h; exact ⟨_, rfl⟩
  · cases h

/-- The engine's turn: one micro-step of the running command, or nothing. -/
theorem engineTurn_cases (s : State) :
    engineTurn s = .next s ∨
    ∃ i w commit, decodeCmd s.engCmd = .ok i ∧ encode i = .cmd w ∧ CommitFrame commit ∧
      s.engCmd = w ∧ exec i s = engineStep w commit s ∧
      engineTurn s = .next (microStep commit s) := by
  unfold engineTurn
  cases h : decodeCmd s.engCmd with
  | error e => exact .inl rfl
  | ok i =>
    obtain ⟨-, w, hw⟩ := decodeCmd_command h
    obtain ⟨commit, hf, he⟩ := exec_command hw
    simp only [he, engineStep]
    split
    · next hc => exact .inr ⟨i, w, commit, rfl, hw, hf, hc, by simp [he, engineStep, hc], rfl⟩
    · exact .inl rfl

/-! ### Steps -/

/-- An instruction that a descriptor decodes to is the read or the write of a register. -/
theorem decodeBus_register {d : BitVec 9} {v : Word} {i : Instr} (h : decodeBus d v = .ok i) :
    ∃ r : Reg, i = r.read ∨ i = r.write v := by
  unfold decodeBus at h
  split at h
  · cases h
  split at h
  · cases h
  · next r _ =>
    refine ⟨r, ?_⟩
    split at h <;> cases h <;> simp

/-- What a register read does when it answers a next state: one HR event, and DR's clears RXNE. -/
theorem exec_read_eq_next {r : Reg} {s t : State} (h : exec r.read s = .next t) :
    s.clkOk = true ∧ ∃ v, t = State.record (.hr r.off v)
      { s with rxne := if r = .dr then false else s.rxne } := by
  cases r <;> simp only [Reg.read, exec, execRdCtrl, execRdStatus, execRdDr, execRdCsctl, execRdCmd,
    execRdRdata, execRdPress, hostRead_eq_next] at h <;>
    exact ⟨h.1, _, h.2⟩

/-- The effect of a register write on the state that holds its HW event. -/
def writeEffect (v : Word) : Reg → State → State
  | .ctrl => writeCtrl v
  | .status => State.clearSticky v
  | .dr => writeDr v
  | .csctl => writeCsctl v
  | .cmd => writeCmd v
  | .rdata => writeRdata
  | .press => writePress

theorem exec_write (r : Reg) (v : Word) (s : State) :
    exec (r.write v) s = hostWrite r v (writeEffect v r) s := by
  cases r <;> rfl

/-- One of HOST's turns: nothing left to do, or one read or write of a register, after which HOST's
operations are some list. -/
theorem hostTurn_cases {s t : State} (h : hostTurn s = .next t) :
    t = s ∨ ∃ (r : Reg) (rest rest' : List HostOp) (u : State),
      (exec r.read { s with host := rest } = .next u ∨
        ∃ v, exec (r.write v) { s with host := rest } = .next u) ∧
      t = { u with host := rest' } := by
  have key : ∀ (a : Access) (rest : List HostOp) (u : State),
      hostAccess a { s with host := rest } = .next u →
      ∃ r : Reg, exec r.read { s with host := rest } = .next u ∨
        ∃ v, exec (r.write v) { s with host := rest } = .next u := by
    intro a rest u hu
    obtain ⟨-, -, i, hd, he⟩ := hostAccess_eq_next.1 hu
    obtain ⟨r, rfl | rfl⟩ := decodeBus_register hd
    · exact ⟨r, .inl he⟩
    · exact ⟨r, .inr ⟨_, he⟩⟩
  unfold hostTurn at h
  split at h
  · left; simpa [eq_comm] using h
  · next a rest _ =>
    obtain ⟨r, hr⟩ := key a rest t h
    exact .inr ⟨r, rest, t.host, t, hr, rfl⟩
  · next w addr size value rest _ =>
    unfold memAccess at h
    split at h
    · next off _ =>
      obtain ⟨r, hr⟩ := key _ rest t h
      exact .inr ⟨r, rest, t.host, t, hr, rfl⟩
    · cases h
  · next r m v rest _ =>
    unfold pollTurn at h
    split at h
    · next u hu =>
      obtain ⟨r', hr⟩ := key _ s.host u hu
      cases h
      refine .inr ⟨r', s.host, (if pollHolds m v u then rest else u.host), u, hr, ?_⟩
      split <;> rfl
    · cases h
    · cases h

/-- What a step can do, by the agent that takes it. -/
theorem step_cases {s t : State} (h : step s = .next t) :
    (nextAgent s = .host ∧ hostTurn s.beginStep = .next t) ∨
    (nextAgent s = .shiftLoad ∧ t = shiftLoad s.beginStep) ∨
    (nextAgent s = .shiftDone ∧ t = shiftDone s.beginStep) ∨
    (nextAgent s = .engine ∧ engineTurn s.beginStep = .next t) ∨
    (nextAgent s = .rst ∧ s.started = false ∧ t = s.beginStep.applyReset) := by
  unfold step takeTurn at h
  cases hg : nextAgent s <;> simp only [hg] at h
  · exact .inl ⟨rfl, h⟩
  · exact .inr (.inl ⟨rfl, by simpa [eq_comm] using h⟩)
  · exact .inr (.inr (.inl ⟨rfl, by simpa [eq_comm] using h⟩))
  · exact .inr (.inr (.inr (.inl ⟨rfl, h⟩)))
  · refine .inr (.inr (.inr (.inr ⟨rfl, ?_⟩)))
    unfold resetTurn at h
    split at h
    · cases h
    · next hs => exact ⟨by simpa using hs, by simpa [eq_comm] using h⟩

end Sys2Proof.Machine
end

