-- ==== Sys2Proof/Laws/Frames.lean ====
section
/-! SUPPORT. What each effect leaves alone: the state after it is the state before it but for the fields
named. -/

namespace Sys2Proof.Machine

/-- A register write is its effect on the state that holds its HW event. -/
theorem exec_write_eq_next {r : Reg} {v : Word} {s t : State} :
    exec (r.write v) s = .next t ↔
      s.clkOk = true ∧ t = writeEffect v r (s.record (.hw r.off v)) := by
  rw [exec_write, hostWrite_eq_next]

theorem driveCs_frame (a e : Bool) (s : State) :
    s.driveCs a e =
      { s with csAssert := a, engCs := e, history := (s.driveCs a e).history } := by
  unfold State.driveCs
  dsimp only
  split <;> rfl

/-! ### Register writes -/

theorem writeCtrl_frame (v : Word) (s : State) :
    writeCtrl v s = { s with
      ctrl := (writeCtrl v s).ctrl
      errBusy := (writeCtrl v s).errBusy
      errCfg := (writeCtrl v s).errCfg } := by
  unfold writeCtrl
  dsimp only
  repeat' split
  all_goals rfl

theorem writeDr_frame (v : Word) (s : State) :
    writeDr v s = { s with
      txbuf := (writeDr v s).txbuf
      txe := (writeDr v s).txe
      errBusy := (writeDr v s).errBusy
      errCfg := (writeDr v s).errCfg
      errTxovw := (writeDr v s).errTxovw } := by
  unfold writeDr
  repeat' split
  all_goals rfl

theorem writeCsctl_frame (v : Word) (s : State) :
    writeCsctl v s = { s with
      csAssert := (writeCsctl v s).csAssert
      errBusy := (writeCsctl v s).errBusy
      history := (writeCsctl v s).history } := by
  unfold writeCsctl
  repeat' split
  all_goals first | rfl | rw [driveCs_frame]

theorem writeCmd_frame (v : Word) (s : State) :
    writeCmd v s = { s with
      cmd := (writeCmd v s).cmd
      engCmd := (writeCmd v s).engCmd
      engOps := (writeCmd v s).engOps
      engIdx := (writeCmd v s).engIdx
      engRx0 := (writeCmd v s).engRx0
      engRx1 := (writeCmd v s).engRx1
      engRx2 := (writeCmd v s).engRx2
      done := (writeCmd v s).done
      ebusy := (writeCmd v s).ebusy
      errCmd := (writeCmd v s).errCmd
      errBusy := (writeCmd v s).errBusy
      errCfg := (writeCmd v s).errCfg } := by
  unfold writeCmd
  repeat' split
  all_goals rfl

/-- A CMD write sets one error bit, or it is accepted from an idle manual path (R91). -/
theorem writeCmd_cases (v : Word) (s : State) :
    writeCmd v s = s.setErrBusy ∨ writeCmd v s = s.setErrCmd ∨ writeCmd v s = s.setErrCfg ∨
    (s.ebusy = false ∧ legal v = true ∧ s.en = true ∧ s.txe = true ∧ s.shActive = false ∧
      s.csAssert = false ∧ writeCmd v s = s.startCommand v) := by
  unfold writeCmd
  repeat' split
  all_goals simp_all

/-! ### SEQ steps -/

theorem shiftLoad_cases (s : State) :
    (shiftLoadEnabled s = false ∧ shiftLoad s = s) ∨
    (shiftLoadEnabled s = true ∧
      shiftLoad s = { s with shift := s.txbuf, txe := true, shActive := true }) := by
  unfold shiftLoad
  split <;> simp_all

theorem shiftDone_cases (s : State) :
    (shiftDoneEnabled s = false ∧ shiftDone s = s) ∨
    (shiftDoneEnabled s = true ∧ s.rxne = true ∧
      shiftDone s = { s.exchange .manual s.shift with ovr := true, shActive := false }) ∨
    (shiftDoneEnabled s = true ∧ s.rxne = false ∧
      shiftDone s = { s.exchange .manual s.shift with
        rxbuf := s.answer s.shift, rxne := true, shActive := false }) := by
  unfold shiftDone
  dsimp only
  split
  · split <;> simp_all
  · simp_all

/-- A micro-operation touches the engine's state, the history and, at FIN, the results
(41_protocol_engine.md R107). -/
theorem runOp_frame {commit : State → State} (hf : CommitFrame commit) (s : State)
    (op : MicroOp) :
    runOp commit s op = { s with
      misoFeed := (runOp commit s op).misoFeed
      ebusy := (runOp commit s op).ebusy
      done := (runOp commit s op).done
      idok := (runOp commit s op).idok
      rdata := (runOp commit s op).rdata
      press := (runOp commit s op).press
      engOps := (runOp commit s op).engOps
      engIdx := (runOp commit s op).engIdx
      engRx0 := (runOp commit s op).engRx0
      engRx1 := (runOp commit s op).engRx1
      engRx2 := (runOp commit s op).engRx2
      engCs := (runOp commit s op).engCs
      history := (runOp commit s op).history } := by
  cases op with
  | csa => simp only [runOp, engCsa, State.advance]; rw [driveCs_frame]
  | xs t => rfl
  | xr t k => match k with
    | 0 => rfl
    | 1 => rfl
    | 2 => rfl
  | csd => simp only [runOp, engCsd, State.advance]; rw [driveCs_frame]
  | fin => simp only [runOp, State.finish]; rw [hf]

/-- Before FIN the results, EBUSY, DONE and the micro-program stay. -/
theorem runOp_before_fin {commit : State → State} (s : State) {op : MicroOp} (h : op ≠ .fin) :
    (runOp commit s op).rdata = s.rdata ∧ (runOp commit s op).press = s.press ∧
    (runOp commit s op).idok = s.idok ∧ (runOp commit s op).done = s.done ∧
    (runOp commit s op).ebusy = s.ebusy ∧ (runOp commit s op).engOps = s.engOps ∧
    (runOp commit s op).engIdx = s.engIdx + 1 := by
  cases op with
  | csa => simp only [runOp, engCsa, State.advance]; rw [driveCs_frame]; simp
  | xs t => exact ⟨rfl, rfl, rfl, rfl, rfl, rfl, rfl⟩
  | xr t k => match k with
    | 0 => exact ⟨rfl, rfl, rfl, rfl, rfl, rfl, rfl⟩
    | 1 => exact ⟨rfl, rfl, rfl, rfl, rfl, rfl, rfl⟩
    | 2 => exact ⟨rfl, rfl, rfl, rfl, rfl, rfl, rfl⟩
  | csd => simp only [runOp, engCsd, State.advance]; rw [driveCs_frame]; simp
  | fin => exact absurd rfl h

/-- At FIN the results are committed and the engine is idle (41_protocol_engine.md R101). -/
theorem runOp_fin {commit : State → State} (hf : CommitFrame commit) (s : State) :
    runOp commit s .fin = { s with
      rdata := (commit s).rdata, press := (commit s).press, idok := (commit s).idok
      ebusy := false, done := true, engOps := [], engIdx := 0 } := by
  simp only [runOp, State.finish]
  rw [hf]

theorem runOp_keeps_done {commit : State → State} (hf : CommitFrame commit) (s : State)
    (op : MicroOp) (h : s.done = true) : (runOp commit s op).done = true := by
  by_cases ho : op = .fin
  · rw [ho, runOp_fin hf]
  · rw [(runOp_before_fin s ho).2.2.2.1, h]

/-! ### Instructions -/

/-- An instruction is a register read, a register write or a command. -/
theorem instr_cases (i : Instr) :
    (∃ r : Reg, i = r.read) ∨ (∃ (r : Reg) (v : Word), i = r.write v) ∨
      ∃ w, encode i = .cmd w := by
  cases i with
  | rdCtrl => exact .inl ⟨.ctrl, rfl⟩
  | rdStatus => exact .inl ⟨.status, rfl⟩
  | rdDr => exact .inl ⟨.dr, rfl⟩
  | rdCsctl => exact .inl ⟨.csctl, rfl⟩
  | rdCmd => exact .inl ⟨.cmd, rfl⟩
  | rdRdata => exact .inl ⟨.rdata, rfl⟩
  | rdPress => exact .inl ⟨.press, rfl⟩
  | wrCtrl v => exact .inr (.inl ⟨.ctrl, v, rfl⟩)
  | wrStatus v => exact .inr (.inl ⟨.status, v, rfl⟩)
  | wrDr v => exact .inr (.inl ⟨.dr, v, rfl⟩)
  | wrCsctl v => exact .inr (.inl ⟨.csctl, v, rfl⟩)
  | wrCmd v => exact .inr (.inl ⟨.cmd, v, rfl⟩)
  | wrRdata v => exact .inr (.inl ⟨.rdata, v, rfl⟩)
  | wrPress v => exact .inr (.inl ⟨.press, v, rfl⟩)
  | read1 _ => exact .inr (.inr ⟨_, rfl⟩)
  | readn _ _ => exact .inr (.inr ⟨_, rfl⟩)
  | write _ _ => exact .inr (.inr ⟨_, rfl⟩)
  | init _ => exact .inr (.inr ⟨_, rfl⟩)
  | readp => exact .inr (.inr ⟨_, rfl⟩)

/-- Executing a command changes nothing, or takes the running command's next micro-operation. -/
theorem exec_command_next {i : Instr} {w : Word} {s t : State} (hw : encode i = .cmd w)
    (h : exec i s = .next t) :
    t = s ∨ ∃ commit op, CommitFrame commit ∧ (∀ u, exec i u = engineStep w commit u) ∧
      s.engCmd = w ∧ s.clkOk = true ∧ s.ebusy = true ∧ s.currentOp = some op ∧
      opEnabled s.en op = true ∧ t = runOp commit s op := by
  obtain ⟨commit, hf, he⟩ := exec_command hw
  rw [he] at h
  simp only [engineStep] at h
  cases h
  split
  · next hc =>
    rcases microStep_cases commit s with ⟨-, h⟩ | ⟨-, op, h1, h2, h3, h4, h⟩
    · exact .inl h
    · exact .inr ⟨commit, op, hf, he, hc, h2, h3, h1, h4, h⟩
  · exact .inl rfl

/-- The engine's turn changes nothing, or takes the running command's next micro-operation. -/
theorem engineTurn_eq_next {s t : State} (h : engineTurn s = .next t) :
    t = s ∨ ∃ i w commit op, decodeCmd s.engCmd = .ok i ∧ encode i = .cmd w ∧
      CommitFrame commit ∧ (∀ u, exec i u = engineStep w commit u) ∧ s.engCmd = w ∧
      s.clkOk = true ∧ s.ebusy = true ∧ s.currentOp = some op ∧ opEnabled s.en op = true ∧
      t = runOp commit s op := by
  unfold engineTurn at h
  split at h
  · next i hi =>
    obtain ⟨-, w, hw⟩ := decodeCmd_command hi
    rcases exec_command_next hw h with h | ⟨commit, op, hf, he, h1, h2, h3, h4, h5, h6⟩
    · exact .inl h
    · exact .inr ⟨i, w, commit, op, hi, hw, hf, he, h1, h2, h3, h4, h5, h6⟩
  · cases h; exact .inl rfl

end Sys2Proof.Machine
end

