-- ==== Sys2Proof/Laws/PerInstr.lean ====
section
/-! SUPPORT. Statements about instructions as syntax, one lemma a constructor. -/

namespace Sys2Proof.Laws.TableRow

/-- A well-formed instruction's encoding falls under its own row of the opcode table
(30_encoding.md R66, R75). -/
def Statement (i : Instr) : Prop :=
  i.wellFormed = true → (opcodeRow i).covers (encode i) = true

theorem rdCtrl : Statement .rdCtrl := by unfold Statement; decide
theorem wrCtrl (v : Word) : Statement (.wrCtrl v) := by
  intro _; simp [opcodeRow, encode, Reg.writeEncoded, descriptor, OpcodeRow.covers, Reg.off]
theorem rdStatus : Statement .rdStatus := by unfold Statement; decide
theorem wrStatus (v : Word) : Statement (.wrStatus v) := by
  intro _; simp [opcodeRow, encode, Reg.writeEncoded, descriptor, OpcodeRow.covers, Reg.off]
theorem rdDr : Statement .rdDr := by unfold Statement; decide
theorem wrDr (v : Word) : Statement (.wrDr v) := by
  intro _; simp [opcodeRow, encode, Reg.writeEncoded, descriptor, OpcodeRow.covers, Reg.off]
theorem rdCsctl : Statement .rdCsctl := by unfold Statement; decide
theorem wrCsctl (v : Word) : Statement (.wrCsctl v) := by
  intro _; simp [opcodeRow, encode, Reg.writeEncoded, descriptor, OpcodeRow.covers, Reg.off]
theorem rdCmd : Statement .rdCmd := by unfold Statement; decide
theorem wrCmd (v : Word) : Statement (.wrCmd v) := by
  intro _; simp [opcodeRow, encode, Reg.writeEncoded, descriptor, OpcodeRow.covers, Reg.off]
theorem rdRdata : Statement .rdRdata := by unfold Statement; decide
theorem wrRdata (v : Word) : Statement (.wrRdata v) := by
  intro _; simp [opcodeRow, encode, Reg.writeEncoded, descriptor, OpcodeRow.covers, Reg.off]
theorem rdPress : Statement .rdPress := by unfold Statement; decide
theorem wrPress (v : Word) : Statement (.wrPress v) := by
  intro _; simp [opcodeRow, encode, Reg.writeEncoded, descriptor, OpcodeRow.covers, Reg.off]

theorem read1 (a : SensorAddr) : Statement (.read1 a) := by
  unfold Statement
  revert a
  decide

theorem readn (a : SensorAddr) (n : BitVec 2) : Statement (.readn a n) := by
  unfold Statement
  revert a n
  decide

theorem write (a : SensorAddr) (d : Byte) : Statement (.write a d) := by
  intro _
  show (true && writeWord a d &&& 0xFF00C0FF#32 == 0x00000003#32) = true
  rw [Bool.true_and, beq_iff_eq]
  unfold writeWord
  ext i hi
  simp
  interval_cases i <;> simp

theorem init (d : Byte) : Statement (.init d) := by
  unfold Statement
  revert d
  decide

theorem readp : Statement .readp := by unfold Statement; decide

end Sys2Proof.Laws.TableRow
end

