-- ==== Sys2Proof/Laws/Programs.lean ====
section
/-! SUPPORT. The five micro-programs, and the level of chip-select at each of their operations. -/

namespace Sys2Proof.Machine

@[simp] theorem expand_read1Word (a : SensorAddr) : expand (read1Word a) = read1Program a := by
  simp [expand, decodeCmd, Program.ofInstr]

theorem expand_readnWord (a : SensorAddr) {n : BitVec 2} (h : n ≠ 0) :
    expand (readnWord a n) = readnProgram a n := by
  have hd : decodeCmd (readnWord a n) = .ok (.readn a n) := by
    unfold decodeCmd
    rw [if_pos (by simpa using h), if_neg (by simp), if_pos (by simp)]
    simp
  rw [expand, hd]
  rfl

@[simp] theorem expand_writeWord (a : SensorAddr) (d : Byte) :
    expand (writeWord a d) = writeProgram a d := by
  simp [expand, decodeCmd, Program.ofInstr]

@[simp] theorem expand_initWord (d : Byte) : expand (initWord d) = initProgram d := by
  simp [expand, decodeCmd, Program.ofInstr]

@[simp] theorem expand_readpWord : expand readpWord = readpProgram := rfl

/-- The engine's chip-select request while an operation of a well-framed program is current. -/
def MicroOp.needsCs : MicroOp → Bool
  | .csa => false
  | .xs _ => true
  | .xr _ _ => true
  | .csd => true
  | .fin => false

/-- The engine's chip-select request after an operation. -/
def MicroOp.leavesCs : MicroOp → Bool
  | .csa => true
  | .xs _ => true
  | .xr _ _ => true
  | .csd => false
  | .fin => false

/-- A program is framed from the request `cs`: each operation finds the request it needs. -/
def framedFrom (cs : Bool) : List MicroOp → Bool
  | [] => true
  | op :: ops => (cs == op.needsCs) && framedFrom op.leavesCs ops

theorem csAfter_append (ops : List MicroOp) (op : MicroOp) :
    csAfter (ops ++ [op]) = match op with
      | .csa => true
      | .csd => false
      | .xs _ => csAfter ops
      | .xr _ _ => csAfter ops
      | .fin => csAfter ops := by
  cases op <;> simp [csAfter, List.foldl_append]

theorem framedFrom_append {cs : Bool} {ops : List MicroOp} {op : MicroOp} {rest : List MicroOp}
    (h : framedFrom cs (ops ++ op :: rest) = true) :
    ops.foldl (fun _ o => o.leavesCs) cs = op.needsCs := by
  induction ops generalizing cs with
  | nil =>
    simp only [List.nil_append, framedFrom, Bool.and_eq_true, beq_iff_eq] at h
    exact h.1
  | cons o ops ih =>
    simp only [List.cons_append, framedFrom, Bool.and_eq_true] at h
    exact ih h.2

/-- In a framed program the request is the one the last operation leaves. -/
theorem csAfter_eq_foldl {ops rest : List MicroOp} (h : framedFrom false (ops ++ rest) = true) :
    csAfter ops = ops.foldl (fun _ o => o.leavesCs) false := by
  induction ops using List.reverseRecOn generalizing rest with
  | nil => rfl
  | append_singleton ops op ih =>
    rw [List.append_assoc, List.singleton_append] at h
    have hc := ih h
    have hn := framedFrom_append h
    rw [csAfter_append, List.foldl_append]
    cases op <;> simp_all [MicroOp.leavesCs, MicroOp.needsCs]

/-- Every micro-program is framed. -/
theorem framed_expand (w : Word) : framedFrom false (expand w) = true := by
  unfold expand
  split
  · next i hi =>
    obtain ⟨-, u, hu⟩ := decodeCmd_command hi
    cases i with
    | readn a n =>
      have h : ∀ m : BitVec 2, m = 0 ∨ m = 1 ∨ m = 2 ∨ m = 3 := by decide
      rcases h n with rfl | rfl | rfl | rfl <;> rfl
    | _ => rfl
  · rfl

/-- Where the engine stands, its chip-select request is the one the current operation needs. -/
theorem csAfter_take_expand {w : Word} {k : Nat} {op : MicroOp} (h : (expand w)[k]? = some op) :
    csAfter ((expand w).take k) = op.needsCs := by
  have hk : k < (expand w).length := by
    rw [List.getElem?_eq_some_iff] at h
    exact h.1
  have hs : expand w = (expand w).take k ++ op :: (expand w).drop (k + 1) := by
    rw [List.getElem?_eq_getElem hk, Option.some.injEq] at h
    rw [← h, List.cons_getElem_drop_succ, List.take_append_drop]
  have hf := framed_expand w
  rw [hs] at hf
  rw [csAfter_eq_foldl hf, framedFrom_append hf]

/-- Every legal word decodes. -/
theorem legal_decodes {w : Word} (h : legal w = true) : ∃ i, decodeCmd w = .ok i := by
  unfold decodeCmd
  rw [if_pos h]
  repeat' split
  all_goals exact ⟨_, rfl⟩

/-- A micro-program ends in FIN and holds no other FIN. -/
theorem expand_eq_append_fin {w : Word} (h : legal w = true) :
    ∃ p, expand w = p ++ [.fin] ∧ .fin ∉ p := by
  obtain ⟨i, hd⟩ := legal_decodes h
  obtain ⟨-, u, hu⟩ := decodeCmd_command hd
  unfold expand
  rw [hd]
  refine ⟨(Program.ofInstr i).dropLast, ?_⟩
  cases i with
  | read1 a => simp [Program.ofInstr, read1Program]
  | readn a n =>
    have hn : ∀ m : BitVec 2, m = 0 ∨ m = 1 ∨ m = 2 ∨ m = 3 := by decide
    rcases hn n with rfl | rfl | rfl | rfl <;> simp [Program.ofInstr, readnProgram, receiveOps]
  | write a d => simp [Program.ofInstr, writeProgram]
  | init d => simp [Program.ofInstr, initProgram]
  | readp => simp [Program.ofInstr, readpProgram, receiveOps]
  | _ => cases hu

/-- FIN stands only at the end of a micro-program. -/
theorem length_of_fin {w : Word} {k : Nat} (hl : legal w = true)
    (h : (expand w)[k]? = some .fin) : k + 1 = (expand w).length := by
  obtain ⟨p, hp, hn⟩ := expand_eq_append_fin hl
  rw [hp] at h ⊢
  rw [List.length_append, List.length_singleton]
  rcases Nat.lt_or_ge k p.length with hk | hk
  · rw [List.getElem?_append_left hk] at h
    exact absurd (List.mem_of_getElem? h) hn
  · rw [List.getElem?_append_right hk, List.getElem?_eq_some_iff] at h
    obtain ⟨h1, -⟩ := h
    rw [List.length_singleton] at h1
    omega

/-- FIN is the last operation of a micro-program. -/
theorem lt_of_not_fin {w : Word} {k : Nat} {op : MicroOp} (h : (expand w)[k]? = some op)
    (hne : op ≠ .fin) : k + 1 < (expand w).length := by
  have hk : k < (expand w).length := by
    rw [List.getElem?_eq_some_iff] at h
    exact h.1
  by_contra hl
  have hlast : (expand w).getLast? = some op := by
    rw [List.getLast?_eq_getElem?, show (expand w).length - 1 = k by omega, h]
  have hfin : (expand w).getLast? = none ∨ (expand w).getLast? = some .fin := by
    unfold expand
    cases hd : decodeCmd w with
    | error e => exact .inl rfl
    | ok i =>
      obtain ⟨-, u, hu⟩ := decodeCmd_command hd
      cases i <;> first
        | cases hu; done
        | (right; simp [Program.ofInstr, read1Program, readnProgram, writeProgram, initProgram,
            readpProgram, List.getLast?_cons, List.getLast?_append])
  rcases hfin with h' | h' <;> rw [h'] at hlast
  · cases hlast
  · cases hlast
    exact hne rfl

/-- A running command's chip-select request is the one its current operation needs. -/
theorem engCs_of_inv {s : State} (hi : Invariant s) (hb : s.ebusy = true) {op : MicroOp}
    (ho : s.currentOp = some op) : s.engCs = op.needsCs := by
  obtain ⟨-, -, h3, -, h5⟩ := hi.running hb
  unfold State.currentOp at ho
  rw [h3] at ho h5
  rw [h5, csAfter_take_expand ho]

/-- A running command that is at FIN has run every operation before it. -/
theorem engIdx_at_fin {s : State} (hi : Invariant s) (hb : s.ebusy = true)
    (hf : s.currentOp = some .fin) : s.engIdx + 1 = (expand s.engCmd).length := by
  obtain ⟨hl, -, h3, -, -⟩ := hi.running hb
  unfold State.currentOp at hf
  rw [h3] at hf
  exact length_of_fin hl hf

/-- While a command runs SPIM is enabled. -/
theorem en_of_inv {s : State} (hi : Invariant s) (hb : s.ebusy = true) : s.en = true := by
  by_contra h
  have := hi.disabledIdle (by simpa using h)
  simp [State.bsy, hb] at this

/-- A running command's instruction takes its current operation. -/
theorem exec_currentOp {i : Instr} {w : Word} {s : State} {op : MicroOp} {commit : State → State}
    (hx : ∀ u, exec i u = engineStep w commit u) (hc : s.clkOk = true) (hb : s.ebusy = true)
    (he : s.engCmd = w) (ho : s.currentOp = some op) (hen : opEnabled s.en op = true) :
    exec i s = .next (runOp commit s op) := by
  have hon : engineEnabled s = true := by simp [engineEnabled, hc, hb, ho, hen]
  simp [hx, engineStep, he, microStep, hon, ho]

/-! ### Chip-select in the history -/

theorem csTrace_append (l : Bool) (h es : List Event) :
    csTrace l (h ++ es) = (csTrace l h).bind fun m => csTrace m es := by
  induction h generalizing l with
  | nil => rfl
  | cons e h ih =>
    cases e with
    | hw off v => exact ih l
    | hr off v => exact ih l
    | cs b => simp only [List.cons_append, csTrace]; split <;> simp [ih]
    | xfer c t r src => simp only [List.cons_append, csTrace]; split <;> simp [ih]

/-- Moving chip-select keeps the history's CS events in step with its level. -/
theorem driveCs_framed (a e : Bool) {s : State} (h : csTrace true s.history = some s.csN) :
    csTrace true (s.driveCs a e).history = some (s.driveCs a e).csN := by
  obtain ⟨h1, ⟨h2, h3⟩ | ⟨h2, h3⟩⟩ := driveCs_cases a e s
  · rw [h3, h2, h]
  · rw [h1] at h2
    rw [h3, h1, csTrace_append, h, Option.bind_some, csTrace, if_neg h2, csTrace]

/-- An exchange is recorded at the level of chip-select. -/
theorem exchange_framed (src : Source) (t : Byte) {s : State}
    (h : csTrace true s.history = some s.csN) :
    csTrace true (s.exchange src t).history = some (s.exchange src t).csN := by
  rw [exchange_history, csTrace_append, h, exchange_csN, Option.bind_some, csTrace, if_pos rfl,
    csTrace]

end Sys2Proof.Machine
end

