-- ==== Sys2Proof/Laws/Run.lean ====
section
/-! SUPPORT. The steps of a command that runs with no turn scheduled: each is its next micro-operation. -/

namespace Sys2Proof.Machine

/-- `s` runs the command `w`, stands at its operation `k` with chip-select request `cs`, and no turn is
scheduled. -/
structure Running (s : State) (w : Word) (k : Nat) (cs : Bool) : Prop where
  clkOk : s.clkOk = true
  sched : s.sched = []
  ebusy : s.ebusy = true
  engIdx : s.engIdx = k
  engCmd : s.engCmd = w
  engOps : s.engOps = expand w
  en : s.en = true
  txe : s.txe = true
  shActive : s.shActive = false
  csAssert : s.csAssert = false
  engCs : s.engCs = cs

/-- A running command of a state in which the invariant holds, wherever it stands. -/
theorem running_of_invariant {s : State} (hi : Invariant s) (hc : s.clkOk = true)
    (hs : s.sched = []) (hb : s.ebusy = true) :
    Running s s.engCmd s.engIdx (csAfter (s.engOps.take s.engIdx)) := by
  obtain ⟨-, -, h3, -, h5⟩ := hi.running hb
  obtain ⟨h6, h7, h8, -⟩ := hi.busyExclusive hb
  exact ⟨hc, hs, hb, rfl, rfl, h3, en_of_inv hi hb, h6, h7, h8, h5⟩

/-- What a step of a command leaves alone before its FIN. -/
structure SameResults (s t : State) : Prop where
  rdata : t.rdata = s.rdata
  press : t.press = s.press
  idok : t.idok = s.idok
  host : t.host = s.host

theorem SameResults.trans {s t u : State} (h : SameResults s t) (h' : SameResults t u) :
    SameResults s u :=
  ⟨h'.rdata.trans h.rdata, h'.press.trans h.press, h'.idok.trans h.idok, h'.host.trans h.host⟩

/-- ENG_RX is unchanged. -/
def SameRx (s t : State) : Prop :=
  t.engRx0 = s.engRx0 ∧ t.engRx1 = s.engRx1 ∧ t.engRx2 = s.engRx2

/-- The step of a running command is its current operation. -/
theorem Running.step_eq {s : State} {w : Word} {k : Nat} {cs : Bool} {i : Instr}
    {commit : State → State} {op : MicroOp} (h : Running s w k cs) (hd : decodeCmd w = .ok i)
    (hx : ∀ u, exec i u = engineStep w commit u) (ho : (expand w)[k]? = some op) :
    step s = .next (runOp commit s.beginStep op) := by
  have hop : s.currentOp = some op := by
    unfold State.currentOp
    rw [h.engOps, h.engIdx, ho]
  have hoe : opEnabled s.en op = true := by
    rw [h.en]
    cases op <;> rfl
  have hen : engineEnabled s = true := by simp [engineEnabled, hop, h.clkOk, h.ebusy, hoe]
  have hn : nextAgent s = .engine := by
    simp [nextAgent, h.sched, defaultAgent, shiftDoneEnabled, shiftLoadEnabled, h.shActive,
      h.txe, hen]
  have he : s.beginStep.engCmd = w := h.engCmd
  simp only [step, hn, takeTurn, engineTurn, he, hd]
  exact exec_currentOp hx h.clkOk h.ebusy he hop hoe

theorem Running.beginStep {s : State} {w : Word} {k : Nat} {cs : Bool} (h : Running s w k cs) :
    Running s.beginStep w k cs := by
  refine ⟨h.clkOk, ?_, h.ebusy, h.engIdx, h.engCmd, h.engOps, h.en, h.txe, h.shActive,
    h.csAssert, h.engCs⟩
  rw [State.beginStep, h.sched]
  rfl

theorem Running.csN {s : State} {w : Word} {k : Nat} {cs : Bool} (h : Running s w k cs) :
    s.csN = !cs := by
  rw [State.csN, h.csAssert, h.engCs, Bool.false_or]

section
variable {s : State} {w : Word} {k : Nat} {i : Instr} {commit : State → State}
  (hd : decodeCmd w = .ok i) (hx : ∀ u, exec i u = engineStep w commit u)
include hd hx

/-- CSA. -/
theorem Running.step_csa (h : Running s w k false) (ho : (expand w)[k]? = some .csa) :
    ∃ t, step s = .next t ∧ Running t w (k + 1) true ∧ SameResults s t ∧ SameRx s t ∧
      t.history = s.history ++ [.cs false] := by
  refine ⟨_, h.step_eq hd hx ho, ?_⟩
  have hb := h.beginStep
  have hcs : s.beginStep.driveCs s.beginStep.csAssert true =
      { s.beginStep with engCs := true, history := s.beginStep.history ++ [.cs false] } := by
    simp [State.driveCs, State.csN, State.record, h.csAssert, h.engCs]
  simp only [runOp, engCsa, State.advance, hcs]
  exact ⟨⟨hb.clkOk, hb.sched, hb.ebusy, by rw [hb.engIdx], hb.engCmd, hb.engOps, hb.en, hb.txe,
    hb.shActive, hb.csAssert, rfl⟩, ⟨rfl, rfl, rfl, rfl⟩, ⟨rfl, rfl, rfl⟩, rfl⟩

/-- CSD. -/
theorem Running.step_csd (h : Running s w k true) (ho : (expand w)[k]? = some .csd) :
    ∃ t, step s = .next t ∧ Running t w (k + 1) false ∧ SameResults s t ∧ SameRx s t ∧
      t.history = s.history ++ [.cs true] := by
  refine ⟨_, h.step_eq hd hx ho, ?_⟩
  have hb := h.beginStep
  have hcs : s.beginStep.driveCs s.beginStep.csAssert false =
      { s.beginStep with engCs := false, history := s.beginStep.history ++ [.cs true] } := by
    simp [State.driveCs, State.csN, State.record, h.csAssert, h.engCs]
  simp only [runOp, engCsd, State.advance, hcs]
  exact ⟨⟨hb.clkOk, hb.sched, hb.ebusy, by rw [hb.engIdx], hb.engCmd, hb.engOps, hb.en, hb.txe,
    hb.shActive, hb.csAssert, rfl⟩, ⟨rfl, rfl, rfl, rfl⟩, ⟨rfl, rfl, rfl⟩, rfl⟩

/-- XS. -/
theorem Running.step_xs (h : Running s w k true) {b : Byte}
    (ho : (expand w)[k]? = some (.xs b)) :
    ∃ t r, step s = .next t ∧ Running t w (k + 1) true ∧ SameResults s t ∧ SameRx s t ∧
      t.history = s.history ++ [.xfer false b r .engine] := by
  refine ⟨_, s.answer b, h.step_eq hd hx ho, ?_⟩
  have hb := h.beginStep
  refine ⟨⟨hb.clkOk, hb.sched, hb.ebusy, congrArg (· + 1) hb.engIdx, hb.engCmd, hb.engOps, hb.en,
    hb.txe, hb.shActive, hb.csAssert, hb.engCs⟩, ⟨rfl, rfl, rfl, rfl⟩, ⟨rfl, rfl, rfl⟩, ?_⟩
  show s.history ++ [.xfer s.csN b (s.answer b) .engine] = _
  rw [h.csN]
  rfl

/-- XR: the byte received goes to ENG_RX[j]. -/
theorem Running.step_xr (h : Running s w k true) {b : Byte} {j : Fin 3}
    (ho : (expand w)[k]? = some (.xr b j)) :
    ∃ t r, step s = .next t ∧ Running t w (k + 1) true ∧ SameResults s t ∧
      t.engRx0 = (if j = 0 then r else s.engRx0) ∧ t.engRx1 = (if j = 1 then r else s.engRx1) ∧
      t.engRx2 = (if j = 2 then r else s.engRx2) ∧
      t.history = s.history ++ [.xfer false b r .engine] := by
  refine ⟨_, s.answer b, h.step_eq hd hx ho, ?_⟩
  have hb := h.beginStep
  have hh : s.history ++ [.xfer s.csN b (s.answer b) .engine] =
      s.history ++ [.xfer false b (s.answer b) .engine] := by
    rw [h.csN]
    rfl
  match j with
  | 0 => exact ⟨⟨hb.clkOk, hb.sched, hb.ebusy, congrArg (· + 1) hb.engIdx, hb.engCmd, hb.engOps,
      hb.en, hb.txe, hb.shActive, hb.csAssert, hb.engCs⟩, ⟨rfl, rfl, rfl, rfl⟩, rfl, rfl, rfl, hh⟩
  | 1 => exact ⟨⟨hb.clkOk, hb.sched, hb.ebusy, congrArg (· + 1) hb.engIdx, hb.engCmd, hb.engOps,
      hb.en, hb.txe, hb.shActive, hb.csAssert, hb.engCs⟩, ⟨rfl, rfl, rfl, rfl⟩, rfl, rfl, rfl, hh⟩
  | 2 => exact ⟨⟨hb.clkOk, hb.sched, hb.ebusy, congrArg (· + 1) hb.engIdx, hb.engCmd, hb.engOps,
      hb.en, hb.txe, hb.shActive, hb.csAssert, hb.engCs⟩, ⟨rfl, rfl, rfl, rfl⟩, rfl, rfl, rfl, hh⟩

/-- FIN: the results are committed and the engine is idle. -/
theorem Running.step_fin (hf : CommitFrame commit) (h : Running s w k false)
    (ho : (expand w)[k]? = some .fin) :
    ∃ t, step s = .next t ∧ t.rdata = (commit s.beginStep).rdata ∧
      t.press = (commit s.beginStep).press ∧ t.idok = (commit s.beginStep).idok ∧
      t.ebusy = false ∧ t.done = true ∧ t.csN = true ∧ t.bsy = false ∧ t.host = s.host ∧
      t.history = s.history := by
  refine ⟨_, h.step_eq hd hx ho, ?_⟩
  rw [runOp_fin hf]
  refine ⟨rfl, rfl, rfl, rfl, rfl, ?_, ?_, rfl, rfl⟩
  · exact h.csN
  · simp [State.bsy, h.txe, h.shActive]

end

/-- A run goes on from the state after its first step. -/
theorem run_succ {k : Nat} {s t : State} (h : step s = .next t) :
    Host.Core.run Sys2Proof.core (k + 1) s = Host.Core.run Sys2Proof.core k t := by
  have h' : Sys2Proof.core.step s = .next t := h
  simp only [Host.Core.run, h']

end Sys2Proof.Machine
end

