-- ==== Sys2Proof/Machine/Host.lean ====
section
/-! DEFINITION. HOST's program notation and the pseudo-instructions (30_encoding.md R76, R77), as lists of
host operations. -/

namespace Sys2Proof.Machine

/-- `WR REG, v`, as it arrives at SPIM. -/
def HostOp.wr (r : Reg) (v : Word) : HostOp := .access ⟨true, r.off, 4, v⟩

/-- `RD REG`; the value read is in the HR event. -/
def HostOp.rd (r : Reg) : HostOp := .access ⟨false, r.off, 4, 0⟩

/-- SELECT. -/
def selectOps : List HostOp := [.wr .csctl 0x1]

/-- DESELECT. -/
def deselectOps : List HostOp := [.wr .csctl 0x0]

/-- EXCHANGE t. -/
def exchangeOps (t : Byte) : List HostOp :=
  [.poll .status 0x2 0x2, .wr .dr (t.setWidth 32), .poll .status 0x1 0x1, .rd .dr]

/-- CONFIGURE, enable last. -/
def configureOps : List HostOp := [.wr .ctrl 0x0000031F, .wr .ctrl 0x0000035F]

/-- RUN w. -/
def runOps (w : Word) : List HostOp := [.wr .cmd w, .poll .status 0x00020000 0x00020000]

/-- CLRDONE. -/
def clrDoneOps : List HostOp := [.wr .status 0x00020000]

end Sys2Proof.Machine
end

