-- ==== Sys2Proof/Tests/Slice0.lean ====
section
/-! SUPPORT. Tests, their expected results from spec/95_test_vectors.md and the examples of the numbered
rules, and a witness for the hypotheses of every statement of Certificates/Slice0/Obligations.lean. -/

namespace Sys2Proof.Tests

open Sys2Proof.Machine

/-! ### Small states -/

/-- "idle enabled" of 95_test_vectors.md section 3. -/
def idleEnabled : State := { State.reset with ctrl := 0x35F }

/-- A manual byte waits in TXBUF. -/
def pending : State := { idleEnabled with txbuf := 0x8F, txe := false }

/-- A manual byte is in the shifter. -/
def inFlight : State := { idleEnabled with shift := 0x8F, shActive := true }

/-- The command `w` is running and stands at its micro-operation `k`; the SLAVE's next answer is 0xBD. -/
def running (w : Word) (k : Nat) : State :=
  { idleEnabled.startCommand w with
    engIdx := k
    engCs := csAfter ((expand w).take k)
    misoFeed := [0xBD]
    history := if csAfter ((expand w).take k) then [.cs false] else [] }

/-- The command `w` stands at its micro-operation `k`; the SLAVE answered `rs` so far. -/
def traced (w : Word) (k : Nat) (rs : List Byte) : State :=
  { running w k with
    engRx0 := receivedAt 0 0 ((expand w).take k) rs
    engRx1 := receivedAt 1 0 ((expand w).take k) rs
    engRx2 := receivedAt 2 0 ((expand w).take k) rs
    history := traceOf ((expand w).take k) rs }

/-- Every sticky bit set. -/
def allSticky : State :=
  { State.reset with
    ovr := true, done := true, errCmd := true, errBusy := true, errCfg := true, errTxovw := true }

/-- What a test looks at in the next state. -/
def see {α : Type} (f : State → α) : Result → Option α
  | .next t => some (f t)
  | .fault _ => none
  | .refused _ => none

/-- The fault a step stops with. -/
def faultOf : Result → Option Fault
  | .next _ => none
  | .fault f => some f
  | .refused _ => none

/-- The refusal a step stops with. -/
def refusalOf : Result → Option Refusal
  | .next _ => none
  | .fault _ => none
  | .refused q => some q

def read (off : BitVec 8) (size : Nat) : Access := ⟨false, off, size, 0⟩
def write (off : BitVec 8) (size : Nat) (v : Word) : Access := ⟨true, off, size, v⟩

/-! ### WellFormed -/

/-- The one check refuses READN with no byte (30_encoding.md R71). -/
theorem test_wellFormed_refuses_readn_zero : (Instr.readn 0x28 0).wellFormed = false := by decide
theorem test_wellFormed_takes_readn_one : (Instr.readn 0x28 1).wellFormed = true := by decide

/-! ### Decoding: words written out from 30_encoding.md R66 and R67 -/

theorem test_decode_rdCtrl : decodeTableWord 9 0b000000000 = some .rdCtrl := by decide
theorem test_decode_wrCtrl : decodeBus 0b100000000 0x35F = .ok (.wrCtrl 0x35F) := by decide
theorem test_decode_rdStatus : decodeTableWord 9 0b000000100 = some .rdStatus := by decide
theorem test_decode_wrStatus : decodeBus 0b100000100 0x20000 = .ok (.wrStatus 0x20000) := by
  decide
theorem test_decode_rdDr : decodeTableWord 16 0b000001000 = some .rdDr := by decide
theorem test_decode_wrDr : decodeBus 0b100001000 0x8F = .ok (.wrDr 0x8F) := by decide
theorem test_decode_rdCsctl : decodeTableWord 16 0b000001100 = some .rdCsctl := by decide
theorem test_decode_wrCsctl : decodeBus 0b100001100 0x1 = .ok (.wrCsctl 0x1) := by decide
theorem test_decode_rdCmd : decodeTableWord 16 0b000010000 = some .rdCmd := by decide
theorem test_decode_wrCmd : decodeBus 0b100010000 0x5 = .ok (.wrCmd 0x5) := by decide
theorem test_decode_rdRdata : decodeTableWord 16 0b000010100 = some .rdRdata := by decide
theorem test_decode_wrRdata : decodeBus 0b100010100 0x7 = .ok (.wrRdata 0x7) := by decide
theorem test_decode_rdPress : decodeTableWord 16 0b000011000 = some .rdPress := by decide
theorem test_decode_wrPress : decodeBus 0b100011000 0x7 = .ok (.wrPress 0x7) := by decide

-- `rrrrrrrr dddddddd rr aaaaaa rr nn oooo` of R67; the words are those of 95_test_vectors.md 3.6.
theorem test_decode_read1 :
    decodeTableWord 32 0b00000000000000000011111100000001 = some (.read1 0x3F) := by decide
theorem test_decode_readn :
    decodeTableWord 32 0b00000000000000000010100000110010 = some (.readn 0x28 3) := by decide
theorem test_decode_write :
    decodeTableWord 32 0b00000000100100000010000000000011 = some (.write 0x20 0x90) := by decide
theorem test_decode_init :
    decodeTableWord 32 0b00000000100100000000000000000100 = some (.init 0x90) := by decide
theorem test_decode_readp :
    decodeTableWord 32 0b00000000000000000000000000000101 = some .readp := by decide

/-- The illegal words of 95_test_vectors.md 3.6. -/
theorem test_illegal_words :
    ([0x00000000, 0x00000006, 0x0000000F, 0x00002802, 0x00000011, 0x00010001, 0x00000013] :
      List Word).all (fun w => !legal w) = true := by decide
theorem test_more_illegal_words :
    ([0x00000104, 0x00000015, 0x00000105, 0x00010005, 0x00000041, 0x00004001, 0x80000005] :
      List Word).all (fun w => !legal w) = true := by decide
theorem test_decode_refuses_illegal_word : decodeCmd 0x00002802 = .error .illegalCommand := by
  decide

/-- 30_encoding.md R66: what is no descriptor of the map. -/
theorem test_decode_refuses_descriptors :
    decodeBus 0x006 0 = .error .misaligned ∧ decodeBus 0x11C 0 = .error .unmapped ∧
    decodeBus 0x020 0 = .error .unmapped := by decide

/-! ### Access checks (95_test_vectors.md 3.1) -/

theorem test_access_noclock :
    faultOf (hostAccess (read 0x1C 1) { State.reset with clkOk := false }) =
      some .busNoClock := by decide
theorem test_access_width_first :
    faultOf (hostAccess (write 0x06 2 0) State.reset) = some .busWidth := by decide
theorem test_access_align :
    faultOf (hostAccess (read 0x06 4) State.reset) = some .busAlign := by decide
theorem test_access_unmapped :
    faultOf (hostAccess (write 0x1C 4 0xFFFFFFFF) State.reset) = some .busUnmapped := by decide
theorem test_access_status :
    see (·.history) (hostAccess (read 0x04 4) State.reset) = some [.hr 0x04 0x00000002] := by
  decide

/-! ### Host accesses (95_test_vectors.md 3.2 to 3.6) -/

theorem test_rdCtrl :
    see (·.lastRead) (exec .rdCtrl idleEnabled) = some (some 0x0000035F) := by decide
theorem test_wrCtrl_unsupported :
    see (fun t => (t.ctrl, t.statusWord)) (exec (.wrCtrl 0x35B) State.reset) =
      some (0x000, 0x04000002) := by decide
theorem test_wrCtrl_reserved_bits :
    see (fun t => (t.ctrl, t.statusWord)) (exec (.wrCtrl 0xFFFFFF1F) State.reset) =
      some (0x31F, 0x00000002) := by decide
theorem test_rdStatus_pending :
    see (·.lastRead) (exec .rdStatus pending) = some (some 0x00000080) := by decide
theorem test_rdStatus_in_flight :
    see (·.lastRead) (exec .rdStatus inFlight) = some (some 0x00000082) := by decide
theorem test_wrStatus_w1c :
    see (·.statusWord) (exec (.wrStatus 0x05000000) { State.reset with
      errCmd := true, errBusy := true, errCfg := true, errTxovw := true }) =
      some 0x0A000002 := by decide
theorem test_wrStatus_rxne_txe_stay :
    see (·.statusWord) (exec (.wrStatus 0x00000003)
      { idleEnabled with rxne := true, ovr := true }) = some 0x00000043 := by decide
theorem test_rdDr :
    see (fun t => (t.lastRead, t.rxne))
      (exec .rdDr { idleEnabled with rxne := true, rxbuf := 0xBD }) =
      some (some 0x000000BD, false) := by decide
theorem test_rdDr_while_busy :
    see (fun t => (t.lastRead, t.rxne, t.ebusy))
      (exec .rdDr { running 0x5 0 with rxne := true, rxbuf := 0x42 }) =
      some (some 0x00000042, false, true) := by decide
theorem test_wrDr_upper_bits_ignored :
    see (fun t => (t.txbuf, t.txe)) (exec (.wrDr 0x1234568F) idleEnabled) =
      some (0x8F, false) := by decide
theorem test_wrDr_pending :
    see (fun t => (t.txbuf, t.errTxovw)) (exec (.wrDr 0x11) { pending with txbuf := 0x00 }) =
      some (0x00, true) := by decide
theorem test_rdCsctl_engine :
    see (·.lastRead) (exec .rdCsctl (running 0x5 1)) = some (some 0x00000000) := by decide
theorem test_wrCsctl_select :
    see (fun t => (t.csAssert, t.csN, wireHistory t.history))
      (exec (.wrCsctl 0x1) State.reset) = some (true, false, [.cs false]) := by decide
theorem test_wrCsctl_only_bit_zero :
    see (fun t => (t.csAssert, t.csN, wireHistory t.history))
      (exec (.wrCsctl 0xFFFFFFFE) { idleEnabled with csAssert := true }) =
      some (false, true, [.cs true]) := by decide
theorem test_rdCmd :
    see (·.lastRead) (exec .rdCmd (running 0x5 0)) = some (some 0x00000005) := by decide
theorem test_wrCmd_accepted :
    see (fun t => (t.cmd, t.statusWord, t.engIdx))
      (exec (.wrCmd 0x00000005) { idleEnabled with done := true }) =
      some (0x00000005, 0x00010082, 0) := by decide
theorem test_wrCmd_legal_before_en :
    see (fun t => (t.cmd, t.statusWord)) (exec (.wrCmd 0x00000006) State.reset) =
      some (0x00000000, 0x01000002) := by decide
theorem test_rdRdata :
    see (·.lastRead) (exec .rdRdata { idleEnabled with rdata := 0x00FFFFFF }) =
      some (some 0x00FFFFFF) := by decide
theorem test_wrRdata_ignored :
    see (fun t => (t.rdata, t.statusWord)) (exec (.wrRdata 0xFFFFFFFF) State.reset) =
      some (0x00000000, 0x00000002) := by decide
theorem test_rdPress :
    see (·.lastRead) (exec .rdPress { idleEnabled with press := 0x00000010 }) =
      some (some 0x00000010) := by decide
theorem test_wrPress_ignored :
    see (fun t => (t.press, t.statusWord)) (exec (.wrPress 0xFFFFFFFF) State.reset) =
      some (0x00000000, 0x00000002) := by decide

/-! ### The shifter (95_test_vectors.md 3.4) -/

theorem test_shiftLoad :
    (shiftLoad pending).shift = 0x8F ∧ (shiftLoad pending).txe = true ∧
    (shiftLoad pending).shActive = true := by decide
theorem test_shiftDone_overrun :
    let t := shiftDone { inFlight with rxne := true, rxbuf := 0x00, misoFeed := [0xBD] }
    t.ovr = true ∧ t.rxbuf = 0x00 ∧ t.shActive = false := by decide
theorem test_shiftDone_event :
    let t := shiftDone { inFlight with csAssert := true, misoFeed := [0x00] }
    t.history = [.xfer false 0x8F 0x00 .manual] ∧ t.rxne = true := by decide

/-! ### Commands (95_test_vectors.md 3.7): one micro-operation each -/

theorem test_read1_framing :
    see (·.history) (exec (.read1 0x29) { running 0x00002901 1 with misoFeed := [0x00] }) =
      some [.cs false, .xfer false 0xA9 0x00 .engine] := by decide
theorem test_read1_fin :
    see (fun t => (t.rdata, t.statusWord)) (exec (.read1 0x0F)
      { running 0x00000F01 4 with engRx0 := 0xBD }) =
      some (0x000000BD, 0x00020002) := by decide
theorem test_readn_framing :
    see (·.history) (exec (.readn 0x29 2) { running 0x00002922 1 with misoFeed := [0x00] }) =
      some [.cs false, .xfer false 0xE9 0x00 .engine] := by decide
theorem test_readn_fin :
    see (fun t => (t.rdata, t.press)) (exec (.readn 0x29 2)
      { running 0x00002922 5 with engRx0 := 0x50, engRx1 := 0x3F }) =
      some (0x00003F50, 0) := by decide
theorem test_write_data :
    see (·.history) (exec (.write 0x20 0x90) { running 0x00902003 2 with misoFeed := [0x00] }) =
      some [.cs false, .xfer false 0x90 0x00 .engine] := by decide
theorem test_write_fin :
    see (fun t => (t.rdata, t.statusWord)) (exec (.write 0x20 0x90)
      { running 0x00902003 4 with rdata := 0x7 }) = some (0x7, 0x00020002) := by decide
theorem test_init_received :
    see (·.engRx0) (exec (.init 0x90) (running 0x00900004 2)) = some 0xBD := by decide
theorem test_init_wrong_sensor :
    see (fun t => (t.rdata, t.idok)) (exec (.init 0x90)
      { running 0x00900004 8 with engRx0 := 0xBC }) = some (0x000000BC, false) := by decide
theorem test_readp_received :
    see (fun t => (t.engRx1, t.engIdx)) (exec .readp (running 0x00000005 3)) =
      some (0xBD, 4) := by decide
theorem test_readp_fin :
    see (fun t => (t.rdata, t.press, t.csN)) (exec .readp
      { running 0x00000005 6 with engRx0 := 0x00, engRx1 := 0x50, engRx2 := 0x3F }) =
      some (0x003F5000, 1013, true) := by decide

/-- The lengths of 95_test_vectors.md 3.7. -/
theorem test_program_lengths :
    (expand 0x00000F01).length = 5 ∧ (expand 0x00002812).length = 5 ∧
    (expand 0x00002832).length = 7 ∧ (expand 0x00902003).length = 5 ∧
    (expand 0x00900004).length = 9 ∧ (expand 0x00000005).length = 7 := by decide

/-! ### Sample assembly (95_test_vectors.md 3.8) -/

theorem test_convert_bit23 : convert (assemble 0x00 0x00 0x80) = 2048 := by decide
theorem test_convert_truncates : convert (assemble 0xFF 0x5F 0x3F) = 1013 := by decide
theorem test_convert_greatest : convert (assemble 0xFF 0xFF 0xFF) = 4095 := by decide
theorem test_idCheck :
    idCheck 0xBD = true ∧
      ∀ b ∈ ([0xBC, 0xBF, 0x3D, 0x00, 0xFF] : List Byte), idCheck b = false := by decide

/-! ### Steps -/

/-- A host turn is one access, the rest of HOST's program waits. -/
theorem test_step_host :
    see (fun t => (t.lastRead, t.host, t.started))
      (step { State.reset with host := [.rd .status, .rd .ctrl] }) =
      some (some 0x00000002, [.rd .ctrl], true) := by decide
/-- A POLL whose condition does not hold stays (30_encoding.md R76). -/
theorem test_step_poll_stays :
    see (·.host) (step { State.reset with host := [.poll .status 0x1 0x1] }) =
      some [.poll .status 0x1 0x1] := by decide
theorem test_step_poll_ends :
    see (·.host) (step { State.reset with host := [.poll .status 0x2 0x2] }) = some [] := by
  decide
theorem test_step_fetches_read :
    see (·.lastRead) (step (State.reset.withFetchWord 9 0x00C)) = some (some 0x00000002) := by
  decide
theorem test_step_fetches_command :
    see (fun t => (t.engIdx, t.history)) (step (State.reset.withFetchWord 32 0x00000F01)) =
      some (1, [.cs false]) := by decide
/-- A reset that starts a run (70_reset_and_hazards.md R124), and a later one (R125). -/
theorem test_step_reset :
    see (·.statusWord) (step { running 0x5 2 with sched := [.rst] }) = some 0x00000002 := by decide
theorem test_step_late_reset :
    refusalOf (step { State.reset with sched := [.rst], started := true }) =
      some .resetAfterFirstStep := by decide

/-! ### Witnesses: for each statement with hypotheses, inputs that meet them, clause by clause -/

/-- A running command meets the invariant at each of its micro-operations. -/
theorem running_invariant {w : Word} {k : Nat} (hl : legal w = true)
    (hk : k < (expand w).length) : Invariant (running w k) := by
  have hen : idleEnabled.en = true := by decide
  refine ⟨fun _ => rfl, fun h => absurd (hen.symm.trans h) (by decide),
    fun _ => ⟨rfl, rfl, rfl, rfl⟩, fun _ => ⟨hl, rfl, rfl, hk, rfl⟩,
    fun h => absurd (show true = false from h) (by decide), ?_, ?_, ?_⟩
  · show (0 : Word).toNat < 16777216
    decide
  · show (0 : Word).toNat ≤ 4095
    decide
  · show csTrace true (if csAfter ((expand w).take k) then [.cs false] else []) =
      some (!(false || csAfter ((expand w).take k)))
    cases csAfter ((expand w).take k) <;> rfl

/-- With its whole trace in the history it meets both invariants. -/
theorem traced_invariants {w : Word} {k : Nat} {rs : List Byte} (hl : legal w = true)
    (hk : k < (expand w).length) (hrs : rs.length = exchangeCount ((expand w).take k))
    (hcs : csTrace true (traceOf ((expand w).take k) rs) = some (!csAfter ((expand w).take k)))
    (hw : wireHistory (traceOf ((expand w).take k) rs) = traceOf ((expand w).take k) rs) :
    Invariant (traced w k rs) ∧ CommandOnWire (traced w k rs) := by
  have h := running_invariant hl hk
  exact ⟨⟨h.1, h.2, h.3, h.4, h.5, h.6, h.7, hcs⟩, fun _ => ⟨[], rs, hrs, hw, rfl, rfl, rfl⟩⟩

/-- The manual path busy meets the invariant too. -/
theorem pending_invariant : Invariant pending := by
  refine ⟨by decide, by decide, by decide, fun h => ?_, fun _ => ⟨rfl, rfl, rfl⟩, by decide,
    by decide, by decide⟩
  exact absurd (show false = true from h) (by decide)

theorem witness_BusDescriptorsOfTheMap :
    (∀ d ∈ ([0x01C, 0x01B, 0x11C, 0x1FF] : List (BitVec 9)),
      d ∉ [0x000, 0x100, 0x004, 0x104, 0x008, 0x108, 0x00C, 0x10C, 0x010, 0x110, 0x014, 0x114,
        0x018, 0x118]) ∧
    descriptor (write 0x1C 4 0).isWrite (write 0x1C 4 0).off = 0x11C := by decide

theorem witness_LegalCommandWords :
    legal 0x00000000 = false ∧ legal 0x00002802 = false ∧ State.reset.clkOk = true ∧
    State.reset.ebusy = false := by decide

theorem witness_LegalWordHasOneRow :
    legal 0x80000005 = false ∧ legal 0x00000001 = true ∧ legal 0x00003F32 = true ∧
    legal 0x00FF3F03 = true ∧ legal 0x00FF0004 = true ∧ legal 0x00000005 = true := by decide

theorem witness_DecodeEncode :
    (Instr.readn 0x3F 3).wellFormed = true ∧ (Instr.wrDr 0xFFFFFFFF).wellFormed = true := by decide

theorem witness_EncodeDecode :
    decodeCmd 0x00003F01 = .ok (.read1 0x3F) ∧ decodeBus 0x118 0xFFFFFFFF = .ok (.wrPress 0xFFFFFFFF) ∧
    decodeBus 0x000 0x7 = .ok .rdCtrl := by decide

theorem witness_ConvertDividesBy4096 :
    (0 < 32 ∧ 31 < 32) ∧ (0x7FFFFFFF : Word).getLsbD 31 = false ∧
    (0x00FFFFFF : Word) = assemble 0xFF 0xFF 0xFF := by decide

theorem witness_IdCheckOnlyExpectedId :
    (running 0x00900004 8).clkOk = true ∧ (running 0x00900004 8).ebusy = true ∧
    (running 0x00900004 8).engCmd = initWord 0x90 ∧
    (running 0x00900004 8).currentOp = some .fin := by decide

/-- Sizes other than 4 (1, 8), offsets that are no multiple of 4 (0x01, 0xFF), 0x1C, and the first and the
last register. -/
theorem witness_AccessChecks :
    State.reset.clkOk = true ∧ (read 0x1C 1).size ≠ 4 ∧ (write 0x00 8 0).size ≠ 4 ∧
    (read 0x01 4).off.toNat % 4 ≠ 0 ∧ (read 0xFF 4).off.toNat % 4 ≠ 0 ∧
    (write 0x1C 4 0).off = 0x1C ∧ (read 0x00 4).off = Reg.ctrl.off ∧
    (write 0x18 4 0).off = Reg.press.off := by decide

theorem witness_NoClockNoAccessNoStep :
    State.clkOk { State.reset with clkOk := false } = false ∧
    see (·.clkOk) (step State.reset) = some true := by decide

/-- The last address of the window and the first past it. -/
theorem witness_WindowIsThirtyTwoBytes :
    (0x1F < 0x20 ∧ Config.spimBase + 0x1F = Config.spimBase + 0x1F) ∧
    Config.spimBase + 0x20 ≤ Config.spimBase + 0x20 := ⟨⟨by decide, rfl⟩, Nat.le_refl _⟩

theorem witness_ReadCtrl :
    State.reset.clkOk = true ∧ State.reset.en = false ∧ (0x35B : Word).getLsbD 6 = true ∧
    (0x35B : Word) &&& 0x000003BF ≠ 0x0000031F := by decide

/-- One write for each branch of R79. -/
theorem witness_WriteCtrl :
    State.reset.clkOk = true ∧ State.reset.en = false ∧ (0x31F : Word).getLsbD 6 = false ∧
    ((0xFFFFFF5F : Word).getLsbD 6 = true ∧ (0xFFFFFF5F : Word) &&& 0x000003BF = 0x0000031F) ∧
    ((0x35B : Word).getLsbD 6 = true ∧ (0x35B : Word) &&& 0x000003BF ≠ 0x0000031F) ∧
    idleEnabled.en = true ∧ (0x35F : Word) &&& 0x000003FF = idleEnabled.ctrl.setWidth 32 ∧
    ((0x3DF : Word).getLsbD 6 = true ∧
      (0x3DF : Word) &&& 0x000003FF ≠ idleEnabled.ctrl.setWidth 32) ∧
    (pending.en = true ∧ pending.bsy = true) ∧ idleEnabled.bsy = false ∧
    (State.reset.en = false → State.reset.bsy = false) := by decide

theorem witness_EnableOnlyWhenSupported :
    State.en { State.reset with host := [.wr .ctrl 0x35F] } = false ∧
    see (·.en) (step { State.reset with host := [.wr .ctrl 0x35F] }) = some true := by decide

theorem witness_ReadStatus : State.reset.clkOk = true ∧ pending.clkOk = true := by decide

theorem witness_WriteStatus :
    State.clkOk { State.reset with done := true, errBusy := true } = true ∧
    State.statusWord { State.reset with done := true, errBusy := true } = 0x02020002 := by decide

/-- Each sticky bit cleared: all six by STATUS, DONE also by acceptance; and a step of SEQ. -/
theorem witness_StickyBitsStay :
    (see (fun t => (t.ovr, t.done, t.errCmd, t.errBusy, t.errCfg, t.errTxovw))
      (exec (.wrStatus 0x0F020040) allSticky) =
      some (false, false, false, false, false, false)) ∧
    (see (fun t => (t.done, t.ebusy)) (exec (.wrCmd 0x5) { idleEnabled with done := true }) =
      some (false, true)) ∧
    nextAgent pending = .shiftLoad ∧ see (·.txe) (step pending) = some true := by decide

theorem witness_ReadDr :
    State.clkOk { State.reset with rxbuf := 0xBD } = true ∧
    State.rxbuf { State.reset with rxbuf := 0xBD } = 0xBD := by decide

theorem witness_WriteDr :
    State.reset.clkOk = true ∧ State.reset.en = false ∧
    ((running 0x5 0).en = true ∧ (running 0x5 0).ebusy = true) ∧
    (pending.en = true ∧ pending.ebusy = false ∧ pending.txe = false) ∧
    (idleEnabled.en = true ∧ idleEnabled.ebusy = false ∧ idleEnabled.txe = true) := by decide

theorem witness_ReadCsctl :
    (running 0x5 1).clkOk = true ∧ (running 0x5 1).csAssert = false ∧
    (running 0x5 1).engCs = true := by decide

/-- The last clause's state is met by no run (the engine holds chip-select only while it is busy). -/
theorem witness_WriteCsctl :
    State.reset.clkOk = true ∧ (0x0 : Word).getLsbD 0 = State.reset.csAssert ∧
    ((0x1 : Word).getLsbD 0 ≠ pending.csAssert ∧ pending.bsy = true) ∧
    ((0x1 : Word).getLsbD 0 ≠ idleEnabled.csAssert ∧ idleEnabled.bsy = false ∧
      idleEnabled.engCs = false) ∧
    ((0x1 : Word).getLsbD 0 ≠ State.csAssert { idleEnabled with engCs := true } ∧
      State.bsy { idleEnabled with engCs := true } = false ∧
      State.engCs { idleEnabled with engCs := true } = true) := by decide

theorem witness_WriteCmd :
    State.reset.clkOk = true ∧ (running 0x5 0).ebusy = true ∧
    (idleEnabled.ebusy = false ∧ legal 0x00002802 = false) ∧
    (legal 0x00000005 = true ∧ State.reset.ebusy = false ∧ State.reset.en = false) ∧
    (pending.ebusy = false ∧ pending.en = true ∧ pending.txe = false) ∧
    (inFlight.ebusy = false ∧ inFlight.en = true ∧ inFlight.shActive = true) ∧
    State.csAssert { idleEnabled with csAssert := true } = true ∧
    (idleEnabled.en = true ∧ idleEnabled.txe = true ∧ idleEnabled.shActive = false ∧
      idleEnabled.csAssert = false) := by decide

theorem witness_ReadCmd :
    idleEnabled.clkOk = true ∧ nextAgent { idleEnabled with host := [.wr .cmd 0x5] } ≠ .rst ∧
    idleEnabled.cmd = 0 ∧
    see (·.cmd) (step { idleEnabled with host := [.wr .cmd 0x5] }) = some 0x5 := by decide

theorem witness_ReadResults : State.reset.clkOk = true := by decide
theorem witness_WriteResultsIgnored : State.reset.clkOk = true := by decide

theorem witness_ReadSideEffects :
    State.reset.clkOk = true ∧ Reg.ctrl ≠ .dr ∧ Reg.press ≠ .dr := by decide

theorem witness_RewriteChangesNothing : idleEnabled.clkOk = true := by decide

theorem witness_ShiftLoadStep :
    State.sched { pending with sched := [.shiftLoad] } = [.shiftLoad] ∧
    shiftLoadEnabled { pending with sched := [.shiftLoad] } = true ∧
    Invariant (running 0x5 0) ∧ (running 0x5 0).ebusy = true :=
  ⟨rfl, rfl, running_invariant (by decide) (by decide), rfl⟩

theorem witness_ShiftDoneStep :
    State.sched { inFlight with sched := [.shiftDone], rxne := true } = [.shiftDone] ∧
    (shiftDoneEnabled { inFlight with sched := [.shiftDone], rxne := true } = true ∧
      State.rxne { inFlight with sched := [.shiftDone], rxne := true } = true) ∧
    shiftDoneEnabled inFlight = true ∧ inFlight.rxne = false := by decide

theorem witness_ScheduleOfTurns :
    (State.sched { State.reset with sched := [.shiftLoad] } = [.shiftLoad] ∧
      shiftLoadEnabled State.reset = false ∧ shiftDoneEnabled State.reset = false ∧
      engineEnabled State.reset = false ∧ State.reset.host = []) ∧
    (encode .readp = .cmd 0x5 ∧ (running 0x00000F01 0).engCmd ≠ 0x5) ∧
    (State.reset.sched = [] ∧ nextAgent State.reset = .host) := by decide

theorem witness_WireCarriesBothBytes : 0 < 8 ∧ 7 < 8 := by decide

theorem witness_ManualExchange :
    idleEnabled.clkOk = true ∧ idleEnabled.en = true ∧ idleEnabled.ebusy = false ∧
    idleEnabled.txe = true ∧ idleEnabled.shActive = false ∧ idleEnabled.rxne = false := by decide

theorem witness_MicroPrograms : (1 : BitVec 2) = 1 ∧ (2 : BitVec 2) = 2 ∧ (3 : BitVec 2) = 3 := by
  decide

/-- INIT's second CSA. -/
theorem witness_EngineAssertsChipSelect :
    (Instr.init 0x90).wellFormed = true ∧ encode (.init 0x90) = .cmd 0x00900004 ∧
    Invariant (running 0x00900004 4) ∧ (running 0x00900004 4).clkOk = true ∧
    (running 0x00900004 4).ebusy = true ∧ (running 0x00900004 4).engCmd = 0x00900004 ∧
    (running 0x00900004 4).currentOp = some .csa :=
  ⟨rfl, rfl, running_invariant (by decide) (by decide), rfl, rfl, rfl, rfl⟩

/-- READP's framing byte and its three receptions. -/
theorem witness_EngineExchangesByte :
    Instr.readp.wellFormed = true ∧ encode .readp = .cmd 0x5 ∧
    (Invariant (running 0x5 1) ∧ (running 0x5 1).clkOk = true ∧ (running 0x5 1).ebusy = true ∧
      (running 0x5 1).engCmd = 0x5 ∧ (running 0x5 1).currentOp = some (.xs 0xE8)) ∧
    (Invariant (running 0x5 2) ∧
      (running 0x5 2).currentOp = some (.xr Config.dummyByte 0)) ∧
    (Invariant (running 0x5 3) ∧
      (running 0x5 3).currentOp = some (.xr Config.dummyByte 1)) ∧
    (Invariant (running 0x5 4) ∧
      (running 0x5 4).currentOp = some (.xr Config.dummyByte 2)) :=
  ⟨rfl, rfl,
    ⟨running_invariant (by decide) (by decide), rfl, rfl, rfl, rfl⟩,
    ⟨running_invariant (by decide) (by decide), rfl⟩,
    ⟨running_invariant (by decide) (by decide), rfl⟩,
    ⟨running_invariant (by decide) (by decide), rfl⟩⟩

theorem witness_EngineDeassertsChipSelect :
    (Instr.write 0x20 0x90).wellFormed = true ∧ encode (.write 0x20 0x90) = .cmd 0x00902003 ∧
    Invariant (running 0x00902003 3) ∧ (running 0x00902003 3).clkOk = true ∧
    (running 0x00902003 3).ebusy = true ∧ (running 0x00902003 3).engCmd = 0x00902003 ∧
    (running 0x00902003 3).currentOp = some .csd :=
  ⟨rfl, rfl, running_invariant (by decide) (by decide), rfl, rfl, rfl, rfl⟩

theorem witness_Read1Command :
    (running 0x00003F01 4).clkOk = true ∧ (running 0x00003F01 4).ebusy = true ∧
    (running 0x00003F01 4).engCmd = 0x00000001 ||| (0x3F : SensorAddr).setWidth 32 <<< 8 ∧
    (running 0x00003F01 4).currentOp = some .fin := by decide

/-- CNT = 0, the least and the greatest CNT, and for the bytes not received CNT 1 and CNT 2. -/
theorem witness_ReadnCommand :
    ((0x00002802 : Word) =
      0x00000002 ||| (0x28 : SensorAddr).setWidth 32 <<< 8 ||| (0 : BitVec 2).setWidth 32 <<< 4) ∧
    ((0x00002812 : Word) =
      0x00000002 ||| (0x28 : SensorAddr).setWidth 32 <<< 8 ||| (1 : BitVec 2).setWidth 32 <<< 4 ∧
      (running 0x00002812 4).clkOk = true ∧ (running 0x00002812 4).ebusy = true ∧
      (running 0x00002812 4).engCmd = 0x00002812 ∧
      (running 0x00002812 4).currentOp = some .fin) ∧
    ((running 0x00002832 6).engCmd = 0x00002832 ∧
      (running 0x00002832 6).currentOp = some .fin) ∧
    ((Invariant (traced 0x00002812 4 [0x00, 0xBD]) ∧
        CommandOnWire (traced 0x00002812 4 [0x00, 0xBD])) ∧
      (traced 0x00002812 4 [0x00, 0xBD]).currentOp = some .fin ∧ (1 : BitVec 2).toNat < 2) ∧
    ((Invariant (traced 0x00002822 5 [0x00, 0xBD, 0xFF]) ∧
        CommandOnWire (traced 0x00002822 5 [0x00, 0xBD, 0xFF])) ∧
      (traced 0x00002822 5 [0x00, 0xBD, 0xFF]).currentOp = some .fin ∧
      (2 : BitVec 2).toNat < 3) :=
  ⟨by decide, by decide, by decide,
    ⟨traced_invariants (by decide) (by decide) rfl rfl rfl, by decide⟩,
    ⟨traced_invariants (by decide) (by decide) rfl rfl rfl, by decide⟩⟩

theorem witness_WriteCommand :
    (0x00FF3F03 : Word) =
      0x00000003 ||| (0x3F : SensorAddr).setWidth 32 <<< 8 ||| (0xFF : Byte).setWidth 32 <<< 16 ∧
    (running 0x00FF3F03 4).clkOk = true ∧ (running 0x00FF3F03 4).ebusy = true ∧
    (running 0x00FF3F03 4).engCmd = 0x00FF3F03 ∧
    (running 0x00FF3F03 4).currentOp = some .fin := by decide

theorem witness_InitCommand :
    (0x00900004 : Word) = 0x00000004 ||| (0x90 : Byte).setWidth 32 <<< 16 ∧
    (running 0x00900004 8).clkOk = true ∧ (running 0x00900004 8).ebusy = true ∧
    (running 0x00900004 8).engCmd = 0x00900004 ∧
    (running 0x00900004 8).currentOp = some .fin ∧
    ((Invariant (traced 0x00900004 8 [0x00, 0xBD, 0x00, 0x00]) ∧
        CommandOnWire (traced 0x00900004 8 [0x00, 0xBD, 0x00, 0x00])) ∧
      (traced 0x00900004 8 [0x00, 0xBD, 0x00, 0x00]).ebusy = true ∧
      (traced 0x00900004 8 [0x00, 0xBD, 0x00, 0x00]).engCmd = 0x00900004 ∧
      (traced 0x00900004 8 [0x00, 0xBD, 0x00, 0x00]).currentOp = some .fin) :=
  ⟨by decide, by decide, by decide, by decide, by decide,
    traced_invariants (by decide) (by decide) rfl rfl rfl, by decide⟩

theorem witness_ReadpCommand :
    (running 0x00000005 6).clkOk = true ∧ (running 0x00000005 6).ebusy = true ∧
    (running 0x00000005 6).engCmd = 0x00000005 ∧
    (running 0x00000005 6).currentOp = some .fin := by decide

theorem witness_EngineLeavesManualPath :
    encode .readp = .cmd 0x5 ∧ see (·.engIdx) (exec .readp (running 0x5 1)) = some 2 ∧
    (running 0x5 1).currentOp = some (.xs 0xE8) := by decide

/-- A FIN that changes RDATA and PRESS, and one that changes IDOK. -/
theorem witness_ResultsOnlyByTheirCommands :
    (nextAgent { running 0x5 6 with engRx2 := 0x01 } ≠ .rst ∧
      see (fun t => (t.rdata, t.press)) (step { running 0x5 6 with engRx2 := 0x01 }) =
        some (0x00010000, 16)) ∧
    see (·.idok) (step { running 0x00900004 8 with engRx0 := 0xBD }) = some true := by decide

theorem witness_StepRunsHostInstruction :
    nextAgent { idleEnabled with host := [.wr .dr 0x8F] } = .host ∧
    State.host { idleEnabled with host := [.wr .dr 0x8F] } = .access ⟨true, 0x08, 4, 0x8F⟩ :: [] ∧
    idleEnabled.clkOk = true ∧
    decodeBus (BitVec.ofBool true ++ (0x08 : BitVec 8)) 0x8F = .ok (.wrDr 0x8F) := by decide

theorem witness_StepRunsCommand :
    nextAgent (running 0x5 0) = .engine ∧ decodeCmd (running 0x5 0).engCmd = .ok .readp := by decide

/-- The shortest and the longest width of each format. -/
theorem witness_FetchedWordRuns :
    State.reset.clkOk = true ∧ decodeTableWord 9 0x118 = some (.wrPress 0) ∧
    decodeTableWord 16 0x118 = some (.wrPress 0) ∧
    decodeTableWord 32 0x00900004 = some (.init 0x90) := by decide

/-- No event, one event and two events. -/
theorem witness_HistoryGrowsByEvents :
    see (·.history) (step State.reset) = some [] ∧
    see (·.history) (step { State.reset with host := [.rd .press] }) = some [.hr 0x18 0] ∧
    see (·.history) (step { State.reset with host := [.wr .csctl 0x1] }) =
      some [.hw 0x0C 0x1, .cs false] := by decide

theorem witness_ResetValues :
    State.started { running 0x5 3 with sched := [.rst] } = false ∧
    State.sched { running 0x5 3 with sched := [.rst] } = .rst :: [] := by decide

theorem witness_NoResetAfterFirstStep :
    see (·.started) (step State.reset) = some true ∧
    (State.started { State.reset with sched := [.rst], started := true } = true ∧
      State.sched { State.reset with sched := [.rst], started := true } = .rst :: []) := by decide

theorem witness_StepKeepsInvariant :
    Invariant (running 0x00002832 3) ∧
    see (·.engIdx) (step (running 0x00002832 3)) = some 4 :=
  ⟨running_invariant (by decide) (by decide), by decide⟩

/-- The command just accepted, and READP after its framing byte and first reception. -/
theorem witness_StepKeepsCommandOnWire :
    (Invariant (running 0x5 0) ∧ CommandOnWire (running 0x5 0) ∧
      see (·.engIdx) (step (running 0x5 0)) = some 1) ∧
    (Invariant (traced 0x5 3 [0x00, 0xBD]) ∧ CommandOnWire (traced 0x5 3 [0x00, 0xBD])) ∧
    see (·.engIdx) (step (traced 0x5 3 [0x00, 0xBD])) = some 4 :=
  ⟨⟨running_invariant (by decide) (by decide), fun _ => ⟨[], [], rfl, rfl, rfl, rfl, rfl⟩,
      by decide⟩,
    traced_invariants (by decide) (by decide) rfl rfl rfl, by decide⟩

/-- A command, and a manual byte. -/
theorem witness_NeverHangs :
    (Invariant (running 0x00900004 0) ∧ (running 0x00900004 0).clkOk = true ∧
      (running 0x00900004 0).sched = [] ∧ (running 0x00900004 0).ebusy = true) ∧
    (Invariant pending ∧ pending.clkOk = true ∧ pending.sched = [] ∧ pending.bsy = true) :=
  ⟨⟨running_invariant (by decide) (by decide), rfl, rfl, rfl⟩,
    ⟨pending_invariant, rfl, rfl, rfl⟩⟩

theorem witness_ReadpEndToEnd :
    Invariant (running 0x5 0) ∧ (running 0x5 0).clkOk = true ∧ (running 0x5 0).sched = [] ∧
    (running 0x5 0).ebusy = true ∧ (running 0x5 0).engIdx = 0 ∧
    (running 0x5 0).engCmd = 0x00000005 :=
  ⟨running_invariant (by decide) (by decide), rfl, rfl, rfl, rfl, rfl⟩

theorem witness_InitEndToEnd :
    Invariant (running 0x00FF0004 0) ∧ (running 0x00FF0004 0).clkOk = true ∧
    (running 0x00FF0004 0).sched = [] ∧ (running 0x00FF0004 0).ebusy = true ∧
    (running 0x00FF0004 0).engIdx = 0 ∧ (running 0x00FF0004 0).engCmd = initWord 0xFF :=
  ⟨running_invariant (by decide) (by decide), rfl, rfl, rfl, rfl, rfl⟩

/-- READ1, READN with the least and the greatest count, WRITE. -/
theorem witness_ReadAndWriteEndToEnd :
    (Invariant (running 0x00000F01 0) ∧ (running 0x00000F01 0).clkOk = true ∧
      (running 0x00000F01 0).sched = [] ∧ (running 0x00000F01 0).ebusy = true ∧
      (running 0x00000F01 0).engIdx = 0 ∧ (running 0x00000F01 0).engRx0 = 0 ∧
      (running 0x00000F01 0).engRx1 = 0 ∧ (running 0x00000F01 0).engRx2 = 0 ∧
      (running 0x00000F01 0).engCmd = read1Word 0x0F) ∧
    (Invariant (running 0x00002812 0) ∧ (running 0x00002812 0).engCmd = readnWord 0x28 1) ∧
    (Invariant (running 0x00002832 0) ∧ (running 0x00002832 0).engCmd = readnWord 0x28 3) ∧
    (Invariant (running 0x00902003 0) ∧ (running 0x00902003 0).engCmd = writeWord 0x20 0x90) :=
  ⟨⟨running_invariant (by decide) (by decide), rfl, rfl, rfl, rfl, rfl, rfl, rfl, rfl⟩,
    ⟨running_invariant (by decide) (by decide), rfl⟩,
    ⟨running_invariant (by decide) (by decide), rfl⟩,
    ⟨running_invariant (by decide) (by decide), rfl⟩⟩

end Sys2Proof.Tests
end

section
/-! SUPPORT. The turns of a run: who takes a step and what that agent's turn is when it has nothing to do
(00_scope.md R8, R10). -/

namespace Sys2Proof.Machine

/-- A step is the turn of the agent that takes it. -/
theorem step_eq_takeTurn {s : State} {g : Agent} (h : nextAgent s = g) :
    step s = takeTurn g s.started s.beginStep := by
  rw [step, h]

/-- A named agent goes next. -/
theorem nextAgent_of_sched {s : State} {g : Agent} {rest : List Agent} (h : s.sched = g :: rest) :
    nextAgent s = g := by
  rw [nextAgent, h]

theorem beginStep_of_sched {s : State} {g : Agent} {rest : List Agent} (h : s.sched = g :: rest) :
    s.beginStep = { s with started := true, sched := rest } := by
  rw [State.beginStep, h, List.tail_cons]

/-- Using up a turn enables and disables no internal step. -/
@[simp] theorem shiftLoadEnabled_beginStep (s : State) :
    shiftLoadEnabled s.beginStep = shiftLoadEnabled s := rfl
@[simp] theorem shiftDoneEnabled_beginStep (s : State) :
    shiftDoneEnabled s.beginStep = shiftDoneEnabled s := rfl
@[simp] theorem engineEnabled_beginStep (s : State) :
    engineEnabled s.beginStep = engineEnabled s := rfl

/-! ### Turns that pass (log 11, log 16) -/

theorem shiftLoad_of_not_enabled {s : State} (h : shiftLoadEnabled s = false) :
    shiftLoad s = s := by
  simp [shiftLoad, h]

theorem shiftDone_of_not_enabled {s : State} (h : shiftDoneEnabled s = false) :
    shiftDone s = s := by
  simp [shiftDone, h]

theorem microStep_of_not_enabled (commit : State → State) {s : State}
    (h : engineEnabled s = false) : microStep commit s = s := by
  simp [microStep, h]

/-- A command changes nothing while the engine has no micro-step to take or runs another one. -/
theorem exec_command_of_not_running {i : Instr} {w : Word} {s : State} (hw : encode i = .cmd w)
    (h : engineEnabled s = false ∨ s.engCmd ≠ w) : exec i s = .next s := by
  obtain ⟨commit, -, hx⟩ := exec_command hw
  rw [hx, engineStep]
  rcases h with hen | hne
  · rw [microStep_of_not_enabled commit hen, ite_self]
  · rw [if_neg hne]

theorem engineTurn_of_not_enabled {s : State} (h : engineEnabled s = false) :
    engineTurn s = .next s := by
  rcases engineTurn_cases s with hs | ⟨i, w, commit, -, -, -, -, -, hs⟩
  · exact hs
  · rw [hs, microStep_of_not_enabled commit h]

theorem hostTurn_of_nil {s : State} (h : s.host = []) : hostTurn s = .next s := by
  rw [hostTurn, h]

/-- HOST goes by default only when no internal step is enabled. -/
theorem defaultAgent_eq_host {s : State} (h : defaultAgent s = .host) :
    shiftLoadEnabled s = false ∧ shiftDoneEnabled s = false ∧ engineEnabled s = false := by
  unfold defaultAgent at h
  split at h
  · cases h
  split at h
  · cases h
  split at h
  · cases h
  simp_all

/-! ### Turns that run an instruction -/

/-- A 4-byte access whose descriptor decodes is its instruction while the clock is on. -/
theorem hostAccess_of_decodeBus {isWrite : Bool} {off : BitVec 8} {v : Word} {i : Instr} {s : State}
    (hc : s.clkOk = true) (hd : decodeBus (descriptor isWrite off) v = .ok i) :
    hostAccess ⟨isWrite, off, 4, v⟩ s = exec i s := by
  simp [hostAccess, hc, hd]

theorem hostTurn_of_access {a : Access} {rest : List HostOp} {s : State}
    (h : s.host = .access a :: rest) : hostTurn s = hostAccess a { s with host := rest } := by
  rw [hostTurn, h]

theorem engineTurn_of_decodeCmd {i : Instr} {s : State} (h : decodeCmd s.engCmd = .ok i) :
    engineTurn s = exec i s := by
  rw [engineTurn, h]

end Sys2Proof.Machine
end

section
/-! SUPPORT. The clock: what it disables while it is off, and that no step changes it (00_scope.md R6). -/

namespace Sys2Proof.Machine

theorem hostAccess_of_no_clock {s : State} (h : s.clkOk = false) (a : Access) :
    hostAccess a s = .fault .busNoClock := by
  simp [hostAccess, h]

theorem hostRead_of_no_clock {s : State} (h : s.clkOk = false) (r : Reg) (v : Word) :
    hostRead r v s = .fault .busNoClock := by
  simp [hostRead, h]

theorem exec_read_of_no_clock {s : State} (h : s.clkOk = false) (r : Reg) :
    exec r.read s = .fault .busNoClock := by
  cases r with
  | dr => exact hostRead_of_no_clock (s := { s with rxne := false }) h _ _
  | _ => exact hostRead_of_no_clock h _ _

theorem exec_write_of_no_clock {s : State} (h : s.clkOk = false) (r : Reg) (v : Word) :
    exec (r.write v) s = .fault .busNoClock := by
  simp [exec_write, hostWrite, h]

theorem shiftLoadEnabled_of_no_clock {s : State} (h : s.clkOk = false) :
    shiftLoadEnabled s = false := by
  simp [shiftLoadEnabled, h]

theorem shiftDoneEnabled_of_no_clock {s : State} (h : s.clkOk = false) :
    shiftDoneEnabled s = false := by
  simp [shiftDoneEnabled, h]

theorem engineEnabled_of_no_clock {s : State} (h : s.clkOk = false) :
    engineEnabled s = false := by
  simp [engineEnabled, h]

@[simp] theorem writeEffect_clkOk (v : Word) (r : Reg) (s : State) :
    (writeEffect v r s).clkOk = s.clkOk := by
  cases r with
  | ctrl => rw [writeEffect, writeCtrl_frame]
  | dr => rw [writeEffect, writeDr_frame]
  | csctl => rw [writeEffect, writeCsctl_frame]
  | cmd => rw [writeEffect, writeCmd_frame]
  | status | rdata | press => rfl

@[simp] theorem shiftLoad_clkOk (s : State) : (shiftLoad s).clkOk = s.clkOk := by
  rcases shiftLoad_cases s with ⟨-, h⟩ | ⟨-, h⟩ <;> rw [h]

@[simp] theorem shiftDone_clkOk (s : State) : (shiftDone s).clkOk = s.clkOk := by
  rcases shiftDone_cases s with ⟨-, h⟩ | ⟨-, -, h⟩ | ⟨-, -, h⟩ <;> rw [h] <;> rfl

theorem engineTurn_clkOk {s t : State} (h : engineTurn s = .next t) : t.clkOk = s.clkOk := by
  rcases engineTurn_eq_next h with rfl | ⟨i, w, commit, op, -, -, hf, -, -, -, -, -, -, rfl⟩
  · rfl
  · rw [runOp_frame hf]

/-- The two accesses of a register keep the clock. -/
theorem exec_access_clkOk {r : Reg} {s t : State}
    (h : exec r.read s = .next t ∨ ∃ v, exec (r.write v) s = .next t) : t.clkOk = s.clkOk := by
  rcases h with hr | ⟨v, hw⟩
  · obtain ⟨-, v, rfl⟩ := exec_read_eq_next hr
    rfl
  · obtain ⟨-, rfl⟩ := exec_write_eq_next.1 hw
    simp

theorem hostTurn_clkOk {s t : State} (h : hostTurn s = .next t) : t.clkOk = s.clkOk := by
  rcases hostTurn_cases h with rfl | ⟨r, rest, rest', u, hu, rfl⟩
  · rfl
  · simpa using exec_access_clkOk hu

/-- `clk_ok` is constant over a run. -/
theorem step_clkOk {s t : State} (h : step s = .next t) : t.clkOk = s.clkOk := by
  rcases step_cases h with ⟨-, ht⟩ | ⟨-, rfl⟩ | ⟨-, rfl⟩ | ⟨-, ht⟩ | ⟨-, -, rfl⟩
  · simpa using hostTurn_clkOk ht
  · exact shiftLoad_clkOk _
  · exact shiftDone_clkOk _
  · simpa using engineTurn_clkOk ht
  · rfl

/-- Settles O13: each access checks the clock first, each internal step's condition holds the clock, and
the agents' turns keep it. -/
theorem noClockNoAccessNoStep : Obligations.NoClockNoAccessNoStep := by
  intro s
  refine ⟨fun h => ?_, fun t => step_clkOk⟩
  have hload := shiftLoadEnabled_of_no_clock h
  have hdone := shiftDoneEnabled_of_no_clock h
  have heng := engineEnabled_of_no_clock h
  exact ⟨hostAccess_of_no_clock h,
    fun r v => ⟨exec_read_of_no_clock h r, exec_write_of_no_clock h r v⟩,
    shiftLoad_of_not_enabled hload, shiftDone_of_not_enabled hdone, engineTurn_of_not_enabled heng,
    hload, hdone, heng⟩

end Sys2Proof.Machine
end

section
/-! SUPPORT. The register window at host addresses (20_memory.md R50), the SLAVE's answers (00_scope.md R9)
and the schedule of turns (log 1). -/

namespace Sys2Proof.Machine

theorem windowOffset_base_add {off : Nat} (h : off < 0x20) :
    windowOffset (Config.spimBase + off) = some (BitVec.ofNat 8 off) := by
  rw [windowOffset, if_pos (by omega), Nat.add_sub_cancel_left]

theorem windowOffset_outside {addr : Nat}
    (h : addr < Config.spimBase ∨ Config.spimBase + 0x20 ≤ addr) : windowOffset addr = none := by
  rw [windowOffset, if_neg (by omega)]

/-- Settles O14: SPIM_BASE is 32 times the window's number, and an address is looked up in the window
before it is an access. -/
theorem windowIsThirtyTwoBytes : Obligations.WindowIsThirtyTwoBytes := by
  intro isWrite addr size v s
  refine ⟨Nat.mul_mod_right 32 _, ?_, fun h => ?_⟩
  · rintro off hoff rfl
    rw [memAccess, windowOffset_base_add hoff]
  · rw [memAccess, windowOffset_outside h]

/-- Settles O33: by the two cases of the answers held ready. -/
theorem slaveAnswersAreFree : Obligations.SlaveAnswersAreFree := by
  intro s t r rest
  exact ⟨answer_cons _ t r rest rfl, answer_nil _ t rfl⟩

/-- Settles O34: a turn that has nothing to do passes, and the default turn is HOST's last. -/
theorem scheduleOfTurns : Obligations.ScheduleOfTurns := by
  refine ⟨?_, fun i w s => exec_command_of_not_running, fun s hs hn => ?_⟩
  · rintro s b g rest hs rfl
    rw [step_eq_takeTurn (nextAgent_of_sched hs), ← beginStep_of_sched hs]
    refine ⟨?_, ?_, ?_, ?_⟩
    · rintro rfl h
      exact congrArg _ (shiftLoad_of_not_enabled ((shiftLoadEnabled_beginStep s).trans h))
    · rintro rfl h
      exact congrArg _ (shiftDone_of_not_enabled ((shiftDoneEnabled_beginStep s).trans h))
    · rintro rfl h
      exact engineTurn_of_not_enabled ((engineEnabled_beginStep s).trans h)
    · rintro rfl h
      exact hostTurn_of_nil ((beginStep_host s).trans h)
  · rw [nextAgent, hs] at hn
    exact defaultAgent_eq_host hn

end Sys2Proof.Machine
end

section
/-! SUPPORT. The instruction a step runs (00_scope.md R10), and a table word placed to be fetched (log 2,
log 21). -/

namespace Sys2Proof.Machine

/-- Settles O48: HOST's turn is its access, which is the decoded instruction while the clock is on. -/
theorem stepRunsHostInstruction : Obligations.StepRunsHostInstruction := by
  intro s isWrite off v rest i hn hh hc hd
  calc step s = hostTurn s.beginStep := step_eq_takeTurn hn
    _ = hostAccess ⟨isWrite, off, 4, v⟩ { s.beginStep with host := rest } := hostTurn_of_access hh
    _ = exec i { s.beginStep with host := rest } := hostAccess_of_decodeBus hc hd

/-- Settles O49: the engine's turn executes what ENG_CMD decodes to. -/
theorem stepRunsCommand : Obligations.StepRunsCommand := by
  intro s i hn hd
  calc step s = engineTurn s.beginStep := step_eq_takeTurn hn
    _ = exec i s.beginStep := engineTurn_of_decodeCmd hd

/-- A descriptor is its direction and its offset (30_encoding.md R66). -/
theorem descriptor_isWrite_off (d : BitVec 9) :
    descriptor (descriptorIsWrite d) (descriptorOff d) = d := by
  revert d
  decide

/-- A placed access is what the next step runs, with the turn and the access used up. -/
theorem step_placeEncoded_bus {s : State} {d : BitVec 9} {v : Word} {i : Instr}
    (hc : s.clkOk = true) (hd : decodeBus d v = .ok i) :
    step (s.placeEncoded (.bus d v)) = exec i { s with started := true } := by
  rw [← descriptor_isWrite_off d] at hd
  exact stepRunsHostInstruction _ _ _ _ s.host i rfl rfl hc hd

/-- A placed command word is what the next step runs, in the engine that has just accepted it. -/
theorem step_placeEncoded_cmd {s : State} {w : Word} {i : Instr} (hd : decodeCmd w = .ok i) :
    step (s.placeEncoded (.cmd w)) = exec i { s.startCommand w with started := true } :=
  stepRunsCommand _ i rfl hd

theorem decodeTableWord_eq_some {nbits w : Nat} {i : Instr} (h : decodeTableWord nbits w = some i) :
    ∃ e, encodedOfTable nbits w = some e ∧ decode e = .ok i := by
  unfold decodeTableWord at h
  split at h
  · cases h
  · next e he =>
    split at h
    · next j hj =>
      cases h
      exact ⟨e, he, hj⟩
    · cases h

/-- What stands in a table word is a descriptor in up to 16 bits, a command word in more. -/
theorem encodedOfTable_eq_some {nbits w : Nat} {e : Encoded} (h : encodedOfTable nbits w = some e) :
    (nbits ≤ 16 ∧ e = .bus (BitVec.ofNat 9 w) 0) ∨
      (16 < nbits ∧ e = .cmd (BitVec.ofNat 32 w)) := by
  unfold encodedOfTable at h
  split at h
  · next hn =>
    obtain ⟨-, rfl⟩ : w < 512 ∧ _ := by simpa using h
    exact .inl ⟨hn, rfl⟩
  · next hn =>
    obtain ⟨-, -, rfl⟩ : nbits = 32 ∧ w < 4294967296 ∧ _ := by simpa using h
    exact .inr ⟨by omega, rfl⟩

theorem withFetchWord_of_encoded {s : State} {nbits w : Nat} {e : Encoded}
    (h : encodedOfTable nbits w = some e) : s.withFetchWord nbits w = s.placeEncoded e := by
  rw [State.withFetchWord, h]

/-- Settles O50: the word is a placed access or a placed command word, by its width. -/
theorem fetchedWordRuns : Obligations.FetchedWordRuns := by
  intro s nbits w i hc hi
  obtain ⟨e, he, hd⟩ := decodeTableWord_eq_some hi
  rw [withFetchWord_of_encoded he]
  rcases encodedOfTable_eq_some he with ⟨hn, rfl⟩ | ⟨hn, rfl⟩
  · exact ⟨_, step_placeEncoded_bus hc hd, rfl, rfl, rfl, rfl, fun _ => rfl, fun h => by omega⟩
  · exact ⟨_, step_placeEncoded_cmd hd, rfl, rfl, rfl, rfl, fun h => by omega, fun _ => rfl⟩

end Sys2Proof.Machine
end

section
/-! SUPPORT. The result writes of each command (41_protocol_engine.md R93 to R97), the range they keep
RDATA and PRESS in, and the engine's turn in their terms. -/

namespace Sys2Proof.Machine

/-- A command's result writes; a BUS access has none. -/
def commitOf : Instr → State → State
  | .read1 _ => commitRead1
  | .readn _ _ => commitReadn
  | .write _ _ => commitWrite
  | .init _ => commitInit
  | .readp => commitReadp
  | _ => id

/-- A command is one engine step of its word with its result writes. -/
theorem exec_eq_engineStep_commitOf {i : Instr} {w : Word} (h : encode i = .cmd w) (s : State) :
    exec i s = engineStep w (commitOf i) s := by
  cases i with
  | read1 | readn | write | init | readp => cases h; rfl
  | _ => cases h

theorem commitOf_frame (i : Instr) : CommitFrame (commitOf i) := by
  intro s
  cases i <;> rfl

/-- The engine's turn changes nothing, or takes the current operation of the command in ENG_CMD. -/
theorem engineTurn_eq_next_runOp {s t : State} (h : engineTurn s = .next t) :
    t = s ∨ ∃ i op, encode i = .cmd s.engCmd ∧ s.ebusy = true ∧ s.currentOp = some op ∧
      t = runOp (commitOf i) s op := by
  rcases engineTurn_eq_next h with
    hs | ⟨i, w, commit, op, -, hw, -, hx, rfl, hc, hb, hop, hen, rfl⟩
  · exact .inl hs
  · have hrun := exec_currentOp hx hc hb rfl hop hen
    rw [exec_currentOp (exec_eq_engineStep_commitOf hw) hc hb rfl hop hen] at hrun
    exact .inr ⟨i, op, hw, hb, hop, (Host.Outcome.next.inj hrun).symm⟩

/-! ### Ranges (10_state.md R37, 42_sample_assembly.md R110) -/

theorem byte_shiftLeft_toNat_lt (b : Byte) {k : Nat} (hk : k ≤ 16) :
    (b.setWidth 32 <<< k).toNat < 2 ^ 24 := by
  have hb : b.toNat * 2 ^ k < 2 ^ 8 * 2 ^ 16 :=
    Nat.mul_lt_mul_of_lt_of_le b.isLt (Nat.pow_le_pow_right (by decide) hk) (by decide)
  have hw : b.toNat % 2 ^ 32 = b.toNat := Nat.mod_eq_of_lt (by have := b.isLt; omega)
  rw [BitVec.toNat_shiftLeft, BitVec.toNat_setWidth, hw, Nat.shiftLeft_eq]
  exact lt_of_le_of_lt (Nat.mod_le _ _) hb

theorem threeBytes_toNat_lt (b0 b1 b2 : Byte) : (threeBytes b0 b1 b2).toNat < 16777216 := by
  rw [threeBytes, BitVec.toNat_or, BitVec.toNat_or]
  have h0 := byte_shiftLeft_toNat_lt b0 (k := 0) (by decide)
  rw [BitVec.shiftLeft_zero] at h0
  exact Nat.or_lt_two_pow (Nat.or_lt_two_pow h0 (byte_shiftLeft_toNat_lt b1 (by decide)))
    (byte_shiftLeft_toNat_lt b2 (by decide))

/-- The sample is the three received bytes in RDATA's order (42_sample_assembly.md R108). -/
theorem assemble_eq_threeBytes (low mid high : Byte) :
    assemble low mid high = threeBytes low mid high := by
  rw [assemble, threeBytes, BitVec.or_comm, ← BitVec.or_assoc, BitVec.or_assoc,
    BitVec.or_comm (high.setWidth 32 <<< 16), ← BitVec.or_assoc]

theorem assemble_toNat_lt (low mid high : Byte) : (assemble low mid high).toNat < 16777216 := by
  rw [assemble_eq_threeBytes]
  exact threeBytes_toNat_lt low mid high

theorem byte_setWidth_toNat_lt (b : Byte) : (b.setWidth 32).toNat < 16777216 := by
  rw [BitVec.toNat_setWidth]
  have := b.isLt
  omega

/-- The conversion of an assembled sample is a 12-bit value. -/
theorem convert_toNat_le {raw : Word} (h : raw.toNat < 16777216) : (convert raw).toNat ≤ 4095 := by
  have hmsb : raw.msb = false := BitVec.msb_eq_false_iff_two_mul_lt.2 (by omega)
  rw [convert, BitVec.sshiftRight_eq_of_msb_false hmsb, BitVec.toNat_ushiftRight,
    Nat.shiftRight_eq_div_pow]
  omega

theorem commitOf_rdata_lt (i : Instr) {s : State} (h : s.rdata.toNat < 16777216) :
    (commitOf i s).rdata.toNat < 16777216 := by
  cases i with
  | read1 | init => exact byte_setWidth_toNat_lt _
  | readn => exact threeBytes_toNat_lt _ _ _
  | readp => exact assemble_toNat_lt _ _ _
  | _ => exact h

theorem commitOf_press_le (i : Instr) {s : State} (h : s.press.toNat ≤ 4095) :
    (commitOf i s).press.toNat ≤ 4095 := by
  cases i with
  | readp => exact convert_toNat_le (assemble_toNat_lt _ _ _)
  | _ => exact h

end Sys2Proof.Machine
end

section
/-! SUPPORT. HOST's turn as the event and the effect of its access, and what each register write can
do. -/

namespace Sys2Proof.Machine

/-- One of HOST's turns: nothing, the HR event of a read, or the effect of a write after its HW event;
HOST's operations are then some list. -/
theorem hostTurn_event_cases {s t : State} (h : hostTurn s = .next t) :
    t = s ∨ ∃ (r : Reg) (v : Word) (rest rest' : List HostOp),
      t = { State.record (.hr r.off v)
          { s with host := rest, rxne := if r = .dr then false else s.rxne } with host := rest' } ∨
      t = { writeEffect v r (State.record (.hw r.off v) { s with host := rest }) with
        host := rest' } := by
  rcases hostTurn_cases h with rfl | ⟨r, rest, rest', u, hr | ⟨v, hw⟩, rfl⟩
  · exact .inl rfl
  · obtain ⟨-, v, rfl⟩ := exec_read_eq_next hr
    exact .inr ⟨r, v, rest, rest', .inl rfl⟩
  · obtain ⟨-, rfl⟩ := exec_write_eq_next.1 hw
    exact .inr ⟨r, v, rest, rest', .inr rfl⟩

/-- The one value of CTRL that is enabled and supported (10_state.md R21). -/
theorem eq_of_supported_enabled : ∀ c : BitVec 10,
    cfgBits c = supportedCfg → c.getLsbD 6 = true → c = 0x35F := by
  decide

/-- A CTRL write sets at most one error bit, or it stores its value: the supported configuration
enabled, or any value disabled while SPIM is not busy (R79). -/
theorem writeCtrl_cases (v : Word) (s : State) :
    writeCtrl v s = s ∨ writeCtrl v s = s.setErrCfg ∨ writeCtrl v s = s.setErrBusy ∨
    (writeCtrl v s = { s with ctrl := ctrlBits v } ∧
      (ctrlBits v = 0x35F ∨
        ((ctrlBits v).getLsbD 6 = false ∧ (s.en = true → s.bsy = false)))) := by
  have hsup := eq_of_supported_enabled (ctrlBits v)
  unfold writeCtrl
  dsimp only
  repeat' split
  all_goals simp_all

/-- A DR write sets one error bit, or it stores the byte of an idle engine's SPIM (R83). -/
theorem writeDr_cases (v : Word) (s : State) :
    writeDr v s = s.setErrCfg ∨ writeDr v s = s.setErrBusy ∨ writeDr v s = s.setErrTxovw ∨
    (s.en = true ∧ s.ebusy = false ∧
      writeDr v s = { s with txbuf := drByte v, txe := false }) := by
  unfold writeDr
  repeat' split
  all_goals simp_all

/-- A CSCTL write sets at most one error bit, or it drives chip-select of a SPIM that is not busy
(R85). -/
theorem writeCsctl_cases (v : Word) (s : State) :
    writeCsctl v s = s ∨ writeCsctl v s = s.setErrBusy ∨
    (s.bsy = false ∧ writeCsctl v s = s.driveCs (assertBit v) s.engCs) := by
  unfold writeCsctl
  repeat' split
  all_goals simp_all

theorem bsy_eq_false_iff {s : State} :
    s.bsy = false ↔ s.txe = true ∧ s.shActive = false ∧ s.ebusy = false := by
  simp [State.bsy, and_assoc]

end Sys2Proof.Machine
end

section
/-! SUPPORT. The machine's invariant over every turn: a host access, a shifter step, a micro-step, a
reset. -/

namespace Sys2Proof.Machine

/-! ### What the invariant does not read -/

/-- The part of a state that the invariant reads, the rest as at reset. -/
def State.invariantPart (s : State) : State :=
  { State.reset with
    ctrl := s.ctrl
    txe := s.txe
    ebusy := s.ebusy
    done := s.done
    shActive := s.shActive
    csAssert := s.csAssert
    cmd := s.cmd
    rdata := s.rdata
    press := s.press
    engOps := s.engOps
    engIdx := s.engIdx
    engCmd := s.engCmd
    engCs := s.engCs
    history := s.history }

theorem invariant_invariantPart_iff {s : State} : Invariant s.invariantPart ↔ Invariant s :=
  ⟨fun h => { h with }, fun h => { h with }⟩

/-- A change of what the invariant does not read keeps it. -/
theorem Invariant.of_part_eq {s t : State} (h : Invariant s)
    (ht : t.invariantPart = s.invariantPart) : Invariant t :=
  invariant_invariantPart_iff.1 (ht ▸ invariant_invariantPart_iff.2 h)

/-! ### HOST's turn -/

/-- A host access's event is not on the pins. -/
theorem Invariant.record {s : State} (h : Invariant s) {e : Event} (he : Event.onWire e = false) :
    Invariant (s.record e) := by
  refine { h with framed := ?_ }
  rw [record_history, csTrace_append, h.framed, Option.bind_some, record_csN]
  cases e with
  | hw | hr => rfl
  | cs | xfer => cases he

theorem Invariant.writeCtrl {s : State} (h : Invariant s) (v : Word) :
    Invariant (writeCtrl v s) := by
  rcases writeCtrl_cases v s with hw | hw | hw | ⟨hw, hc⟩ <;> rw [hw]
  · exact h
  · exact h.of_part_eq rfl
  · exact h.of_part_eq rfl
  · have hcfg : ({ s with ctrl := ctrlBits v } : State).en = true → ctrlBits v = 0x35F := by
      rcases hc with hc | ⟨hc, -⟩
      · exact fun _ => hc
      · exact fun hen => absurd hen (ne_true_of_eq_false hc)
    have hidle : ({ s with ctrl := ctrlBits v } : State).en = false → s.bsy = false := by
      rcases hc with hc | ⟨-, hb⟩
      · intro hen
        have hoff : (0x35F : BitVec 10).getLsbD 6 = false := hc ▸ hen
        exact absurd hoff (by decide)
      · cases hen : s.en with
        | false => exact fun _ => h.disabledIdle hen
        | true => exact fun _ => hb hen
    exact { h with enabledCfg := hcfg, disabledIdle := hidle }

theorem Invariant.clearSticky {s : State} (h : Invariant s) (v : Word) :
    Invariant (s.clearSticky v) := by
  have hbusy : s.ebusy = true →
      s.txe = true ∧ s.shActive = false ∧ s.csAssert = false ∧ (s.clearSticky v).done = false := by
    intro hb
    obtain ⟨htxe, hsh, hcs, hdone⟩ := h.busyExclusive hb
    exact ⟨htxe, hsh, hcs, by rw [State.clearSticky, hdone, Bool.false_and]⟩
  exact { h with busyExclusive := hbusy }

theorem Invariant.writeDr {s : State} (h : Invariant s) (v : Word) : Invariant (writeDr v s) := by
  rcases writeDr_cases v s with hw | hw | hw | ⟨hen, hb, hw⟩ <;> rw [hw]
  · exact h.of_part_eq rfl
  · exact h.of_part_eq rfl
  · exact h.of_part_eq rfl
  · exact { h with
      disabledIdle := fun hd => absurd hen (ne_true_of_eq_false hd)
      busyExclusive := fun hb' => absurd hb' (ne_true_of_eq_false hb) }

theorem Invariant.writeCsctl {s : State} (h : Invariant s) (v : Word) :
    Invariant (writeCsctl v s) := by
  rcases writeCsctl_cases v s with hw | hw | ⟨hb, hw⟩ <;> rw [hw]
  · exact h
  · exact h.of_part_eq rfl
  · obtain ⟨-, -, hbusy⟩ := bsy_eq_false_iff.1 hb
    have hrun : (s.driveCs (assertBit v) s.engCs).ebusy ≠ true := by simp [hbusy]
    exact {
      enabledCfg := by simpa using h.enabledCfg
      disabledIdle := by simpa using h.disabledIdle
      busyExclusive := fun hr => absurd hr hrun
      running := fun hr => absurd hr hrun
      idle := by simpa using h.idle
      rdataBytes := by simpa using h.rdataBytes
      pressRange := by simpa using h.pressRange
      framed := driveCs_framed _ _ h.framed }

/-- An accepted command stands at the start of its micro-program. -/
theorem Invariant.startCommand {s : State} (h : Invariant s) {v : Word} (hb : s.ebusy = false)
    (hl : legal v = true) (hen : s.en = true) (htxe : s.txe = true) (hsh : s.shActive = false)
    (hcs : s.csAssert = false) : Invariant (s.startCommand v) := by
  obtain ⟨p, hp, -⟩ := expand_eq_append_fin hl
  obtain ⟨-, -, hengCs⟩ := h.idle hb
  have hlen : 0 < (expand v).length := by rw [hp, List.length_append]; simp
  exact { h with
    disabledIdle := fun hd => absurd hen (ne_true_of_eq_false hd)
    busyExclusive := fun _ => ⟨htxe, hsh, hcs, rfl⟩
    running := fun _ => ⟨hl, rfl, rfl, hlen, hengCs⟩
    idle := fun hd => absurd rfl (ne_true_of_eq_false hd) }

theorem Invariant.writeCmd {s : State} (h : Invariant s) (v : Word) : Invariant (writeCmd v s) := by
  rcases writeCmd_cases v s with hw | hw | hw | ⟨hb, hl, hen, htxe, hsh, hcs, hw⟩ <;> rw [hw]
  · exact h.of_part_eq rfl
  · exact h.of_part_eq rfl
  · exact h.of_part_eq rfl
  · exact h.startCommand hb hl hen htxe hsh hcs

theorem Invariant.writeEffect {s : State} (h : Invariant s) (v : Word) (r : Reg) :
    Invariant (writeEffect v r s) := by
  cases r with
  | ctrl => exact h.writeCtrl v
  | status => exact h.clearSticky v
  | dr => exact h.writeDr v
  | csctl => exact h.writeCsctl v
  | cmd => exact h.writeCmd v
  | rdata | press => exact h

theorem Invariant.hostTurn {s t : State} (h : Invariant s) (ht : hostTurn s = .next t) :
    Invariant t := by
  rcases hostTurn_event_cases ht with rfl | ⟨r, v, rest, rest', rfl | rfl⟩
  · exact h
  · exact (h.record (e := .hr r.off v) rfl).of_part_eq rfl
  · have hrec := (h.record (e := .hw r.off v) rfl).of_part_eq
      (t := ({ s with host := rest } : State).record (.hw r.off v)) rfl
    exact (hrec.writeEffect v r).of_part_eq rfl

/-! ### The shifter -/

theorem Invariant.shiftLoad {s : State} (h : Invariant s) : Invariant (shiftLoad s) := by
  rcases shiftLoad_cases s with ⟨-, hs⟩ | ⟨hon, hs⟩ <;> rw [hs]
  · exact h
  · simp only [shiftLoadEnabled, Bool.and_eq_true, Bool.not_eq_true'] at hon
    obtain ⟨⟨⟨-, hen⟩, htxe⟩, -⟩ := hon
    have hidle : s.ebusy ≠ true := by
      intro hb
      obtain ⟨hfull, -⟩ := h.busyExclusive hb
      exact absurd hfull (ne_true_of_eq_false htxe)
    exact { h with
      disabledIdle := fun hd => absurd hen (ne_true_of_eq_false hd)
      busyExclusive := fun hb => absurd hb hidle }

/-- An exchange at the level of chip-select. -/
theorem Invariant.exchange {s : State} (h : Invariant s) (src : Source) (b : Byte) :
    Invariant (s.exchange src b) :=
  { h with framed := exchange_framed src b h.framed }

/-- The shifter is emptied. -/
theorem Invariant.clear_shActive {s : State} (h : Invariant s) :
    Invariant { s with shActive := false } := by
  refine { h with disabledIdle := fun hd => ?_, busyExclusive := fun hb => ?_ }
  · obtain ⟨htxe, -, hb⟩ := bsy_eq_false_iff.1 (h.disabledIdle hd)
    exact bsy_eq_false_iff.2 ⟨htxe, rfl, hb⟩
  · obtain ⟨htxe, -, hcs, hdone⟩ := h.busyExclusive hb
    exact ⟨htxe, rfl, hcs, hdone⟩

theorem Invariant.shiftDone {s : State} (h : Invariant s) : Invariant (shiftDone s) := by
  have hx := (h.exchange .manual s.shift).clear_shActive
  rcases shiftDone_cases s with ⟨-, hs⟩ | ⟨-, -, hs⟩ | ⟨-, -, hs⟩ <;> rw [hs]
  · exact h
  · exact hx.of_part_eq rfl
  · exact hx.of_part_eq rfl

/-! ### The engine -/

/-- After an operation of a micro-program the chip-select request is the one the operation leaves. -/
theorem csAfter_take_succ_expand {w : Word} {k : Nat} {op : MicroOp}
    (h : (expand w)[k]? = some op) : csAfter ((expand w).take (k + 1)) = op.leavesCs := by
  rw [List.take_add_one, h, Option.toList_some, csAfter_append, csAfter_take_expand h]
  cases op <;> rfl

section
variable {s : State} {op : MicroOp} {commit : State → State}

/-- An operation that finds the chip-select request it needs leaves the one its kind leaves. -/
theorem runOp_engCs (hf : CommitFrame commit) (hn : s.engCs = op.needsCs) :
    (runOp commit s op).engCs = op.leavesCs := by
  cases op with
  | csa => exact (advance_engCs _).trans (driveCs_engCs _ _ _)
  | xs b => exact hn
  | xr b k => exact (setRx_engCs k _ _).trans hn
  | csd => exact (advance_engCs _).trans (driveCs_engCs _ _ _)
  | fin => rw [runOp_fin hf]; exact hn

/-- Chip-select moves and exchanges stand in the history as they were made. -/
theorem runOp_framed (hf : CommitFrame commit) (h : csTrace true s.history = some s.csN) :
    csTrace true (runOp commit s op).history = some (runOp commit s op).csN := by
  cases op with
  | csa => exact driveCs_framed _ _ h
  | xs b => exact exchange_framed _ _ h
  | xr b k => simpa [runOp, engXr] using exchange_framed .engine b h
  | csd => exact driveCs_framed _ _ h
  | fin => rw [runOp_fin hf]; exact h

/-- Before FIN the engine goes on to the next operation of the micro-program. -/
theorem Invariant.runOp_before_fin (h : Invariant s) (hf : CommitFrame commit)
    (hb : s.ebusy = true) (hop : s.currentOp = some op) (hne : op ≠ .fin) :
    Invariant (runOp commit s op) := by
  obtain ⟨hl, hcmd, hops, -, -⟩ := h.running hb
  obtain ⟨hrdata, hpress, -, hdone, hbusy, hops', hidx⟩ :=
    Machine.runOp_before_fin (commit := commit) s hne
  have hfr := runOp_frame hf s op
  have hen := en_of_inv h hb
  have hen' : (runOp commit s op).en = true := (congrArg State.en hfr).trans hen
  have hat : (expand s.engCmd)[s.engIdx]? = some op := hops ▸ hop
  exact {
    enabledCfg := fun _ => (congrArg State.ctrl hfr).trans (h.enabledCfg hen)
    disabledIdle := fun hd => absurd hen' (ne_true_of_eq_false hd)
    busyExclusive := fun _ => by rw [hdone, hfr]; exact h.busyExclusive hb
    running := fun _ => by
      rw [hops', hidx, runOp_engCs hf (engCs_of_inv h hb hop), hops, csAfter_take_succ_expand hat,
        hfr]
      exact ⟨hl, hcmd, rfl, lt_of_not_fin hat hne, rfl⟩
    idle := fun hd => absurd (hbusy.trans hb) (ne_true_of_eq_false hd)
    rdataBytes := hrdata ▸ h.rdataBytes
    pressRange := hpress ▸ h.pressRange
    framed := runOp_framed hf h.framed }

theorem Invariant.runOp_fin (h : Invariant s) (hb : s.ebusy = true)
    (hop : s.currentOp = some .fin) (i : Instr) : Invariant (runOp (commitOf i) s .fin) := by
  have hen := en_of_inv h hb
  have hcs : s.engCs = false := engCs_of_inv h hb hop
  rw [Machine.runOp_fin (commitOf_frame i)]
  exact { h with
    disabledIdle := fun hd => absurd hen (ne_true_of_eq_false hd)
    busyExclusive := fun hr => absurd hr Bool.false_ne_true
    running := fun hr => absurd hr Bool.false_ne_true
    idle := fun _ => ⟨rfl, rfl, hcs⟩
    rdataBytes := commitOf_rdata_lt i h.rdataBytes
    pressRange := commitOf_press_le i h.pressRange }

end

theorem Invariant.engineTurn {s t : State} (h : Invariant s) (ht : engineTurn s = .next t) :
    Invariant t := by
  rcases engineTurn_eq_next_runOp ht with rfl | ⟨i, op, -, hb, hop, rfl⟩
  · exact h
  · by_cases hfin : op = .fin
    · subst hfin
      exact h.runOp_fin hb hop i
    · exact h.runOp_before_fin (commitOf_frame i) hb hop hfin

/-! ### Reset and the step -/

theorem invariant_reset : Invariant State.reset :=
  ⟨by decide, by decide, by decide, by decide, by decide, by decide, by decide, by decide⟩

theorem invariant_applyReset (s : State) : Invariant s.applyReset :=
  invariant_reset.of_part_eq rfl

/-- Settles O55: by the agent that takes the step. -/
theorem stepKeepsInvariant : Obligations.StepKeepsInvariant := by
  intro s t hs ht
  have hb : Invariant s.beginStep := hs.of_part_eq rfl
  rcases step_cases ht with ⟨-, ht⟩ | ⟨-, rfl⟩ | ⟨-, rfl⟩ | ⟨-, ht⟩ | ⟨-, -, rfl⟩
  · exact hb.hostTurn ht
  · exact hb.shiftLoad
  · exact hb.shiftDone
  · exact hb.engineTurn ht
  · exact invariant_applyReset _

end Sys2Proof.Machine
end

section
/-! SUPPORT. What a step can do to CTRL, to the result registers and to the history. -/

namespace Sys2Proof.Machine

/-! ### What the shifter leaves alone -/

theorem shiftLoad_frame (s : State) :
    shiftLoad s = { s with
      shift := (shiftLoad s).shift
      txe := (shiftLoad s).txe
      shActive := (shiftLoad s).shActive } := by
  rcases shiftLoad_cases s with ⟨-, h⟩ | ⟨-, h⟩ <;> rw [h]

theorem shiftDone_frame (s : State) :
    shiftDone s = { s with
      misoFeed := (shiftDone s).misoFeed
      rxne := (shiftDone s).rxne
      ovr := (shiftDone s).ovr
      rxbuf := (shiftDone s).rxbuf
      shActive := (shiftDone s).shActive
      history := (shiftDone s).history } := by
  rcases shiftDone_cases s with ⟨-, h⟩ | ⟨-, -, h⟩ | ⟨-, -, h⟩ <;> rw [h]
  all_goals rfl

/-! ### EN (10_state.md R16, 70_reset_and_hazards.md R127) -/

theorem shiftLoad_en (s : State) : (shiftLoad s).en = s.en := by
  rw [shiftLoad_frame]; rfl

theorem shiftDone_en (s : State) : (shiftDone s).en = s.en := by
  rw [shiftDone_frame]; rfl

theorem engineTurn_en {s t : State} (h : engineTurn s = .next t) : t.en = s.en := by
  rcases engineTurn_eq_next_runOp h with rfl | ⟨i, op, -, -, -, rfl⟩
  · rfl
  · rw [runOp_frame (commitOf_frame i)]; rfl

/-- A write of another register leaves CTRL. -/
theorem writeEffect_en {r : Reg} (hr : r ≠ .ctrl) (v : Word) (s : State) :
    (writeEffect v r s).en = s.en := by
  cases r with
  | ctrl => exact absurd rfl hr
  | dr => rw [writeEffect, writeDr_frame]; rfl
  | csctl => rw [writeEffect, writeCsctl_frame]; rfl
  | cmd => rw [writeEffect, writeCmd_frame]; rfl
  | status | rdata | press => rfl

/-- A CTRL write that enables stores the supported configuration and sets no error bit. -/
theorem writeCtrl_enables {v : Word} {s : State} (hs : s.en = false)
    (ht : (writeCtrl v s).en = true) :
    (writeCtrl v s).ctrl = 0x35F ∧ (writeCtrl v s).errCfg = s.errCfg := by
  rcases writeCtrl_cases v s with h | h | h | ⟨h, hc⟩ <;> rw [h] at ht ⊢
  · exact absurd ht (ne_true_of_eq_false hs)
  · exact absurd ht (ne_true_of_eq_false hs)
  · exact absurd ht (ne_true_of_eq_false hs)
  · rcases hc with hc | ⟨hc, -⟩
    · exact ⟨hc, rfl⟩
    · exact absurd ht (ne_true_of_eq_false hc)

theorem hostTurn_enables {s t : State} (h : hostTurn s = .next t) (hs : s.en = false)
    (ht : t.en = true) : t.ctrl = 0x35F ∧ t.errCfg = s.errCfg := by
  rcases hostTurn_event_cases h with rfl | ⟨r, v, rest, rest', rfl | rfl⟩
  · exact absurd ht (ne_true_of_eq_false hs)
  · exact absurd ht (ne_true_of_eq_false hs)
  · by_cases hr : r = .ctrl
    · subst hr
      exact writeCtrl_enables (s := ({ s with host := rest } : State).record _) hs ht
    · have hen := (writeEffect_en hr v (({ s with host := rest } : State).record _)).symm.trans ht
      exact absurd hen (ne_true_of_eq_false hs)

/-- Settles O17: only a CTRL write of HOST's turn changes EN from 0 to 1. -/
theorem enableOnlyWhenSupported : Obligations.EnableOnlyWhenSupported := by
  intro s t h hs ht
  rcases step_cases h with ⟨hn, h⟩ | ⟨-, rfl⟩ | ⟨-, rfl⟩ | ⟨-, h⟩ | ⟨-, -, rfl⟩
  · exact ⟨hn, hostTurn_enables (s := s.beginStep) h hs ht⟩
  · rw [shiftLoad_en] at ht
    exact absurd ht (ne_true_of_eq_false hs)
  · rw [shiftDone_en] at ht
    exact absurd ht (ne_true_of_eq_false hs)
  · rw [engineTurn_en h] at ht
    exact absurd ht (ne_true_of_eq_false hs)
  · exact absurd ht (by decide : State.reset.en ≠ true)

/-! ### The result registers (10_state.md R28, R37, R38) -/

/-- The registers that results are written to: RDATA, PRESS and STATUS.IDOK. -/
def State.results (s : State) : Word × Word × Bool := (s.rdata, s.press, s.idok)

theorem State.results_eq_iff {s t : State} :
    t.results = s.results ↔ t.rdata = s.rdata ∧ t.press = s.press ∧ t.idok = s.idok := by
  simp only [State.results, Prod.mk.injEq]

theorem writeEffect_results (v : Word) (r : Reg) (s : State) :
    (writeEffect v r s).results = s.results := by
  cases r with
  | ctrl => rw [writeEffect, writeCtrl_frame]; rfl
  | dr => rw [writeEffect, writeDr_frame]; rfl
  | csctl => rw [writeEffect, writeCsctl_frame]; rfl
  | cmd => rw [writeEffect, writeCmd_frame]; rfl
  | status | rdata | press => rfl

theorem hostTurn_results {s t : State} (h : hostTurn s = .next t) : t.results = s.results := by
  rcases hostTurn_event_cases h with rfl | ⟨r, v, rest, rest', rfl | rfl⟩
  · rfl
  · rfl
  · exact writeEffect_results v r _

theorem shiftLoad_results (s : State) : (shiftLoad s).results = s.results := by
  rw [shiftLoad_frame]; rfl

theorem shiftDone_results (s : State) : (shiftDone s).results = s.results := by
  rw [shiftDone_frame]; rfl

/-- The engine's turn leaves the results, or is the FIN that commits the running command's. -/
theorem engineTurn_results {s t : State} (h : engineTurn s = .next t) :
    t.results = s.results ∨ (s.currentOp = some .fin ∧
      ∃ i, encode i = .cmd s.engCmd ∧ t.results = (commitOf i s).results) := by
  rcases engineTurn_eq_next_runOp h with rfl | ⟨i, op, hw, -, hop, rfl⟩
  · exact .inl rfl
  · by_cases hfin : op = .fin
    · subst hfin
      rw [runOp_fin (commitOf_frame i)]
      exact .inr ⟨hop, i, hw, rfl⟩
    · obtain ⟨hrdata, hpress, hidok, -⟩ := runOp_before_fin (commit := commitOf i) s hfin
      exact .inl (State.results_eq_iff.2 ⟨hrdata, hpress, hidok⟩)

/-- A step other than reset leaves the results, or is the FIN that commits the running command's. -/
theorem step_results {s t : State} (h : step s = .next t) (hn : nextAgent s ≠ .rst) :
    t.results = s.results ∨ (nextAgent s = .engine ∧ s.currentOp = some .fin ∧
      ∃ i, encode i = .cmd s.engCmd ∧ t.results = (commitOf i s.beginStep).results) := by
  rcases step_cases h with ⟨-, h⟩ | ⟨-, rfl⟩ | ⟨-, rfl⟩ | ⟨hg, h⟩ | ⟨hg, -⟩
  · exact .inl (hostTurn_results (s := s.beginStep) h)
  · exact .inl (shiftLoad_results s.beginStep)
  · exact .inl (shiftDone_results s.beginStep)
  · exact (engineTurn_results (s := s.beginStep) h).imp_right fun hfin => ⟨hg, hfin⟩
  · exact absurd hg hn

section
variable {i : Instr} {w : Word} {s : State} (hw : encode i = .cmd w)
include hw

/-- WRITE alone leaves RDATA. -/
theorem opField_of_commitOf_rdata_ne (h : (commitOf i s).rdata ≠ s.rdata) :
    opField w = 1 ∨ opField w = 2 ∨ opField w = 4 ∨ opField w = 5 := by
  cases i with
  | read1 a => cases hw; exact .inl (opField_read1Word a)
  | readn a n => cases hw; exact .inr (.inl (opField_readnWord a n))
  | init d => cases hw; exact .inr (.inr (.inl (opField_initWord d)))
  | readp => cases hw; exact .inr (.inr (.inr rfl))
  | _ => exact absurd rfl h

theorem eq_readpWord_of_commitOf_press_ne (h : (commitOf i s).press ≠ s.press) :
    w = readpWord := by
  cases i with
  | readp => cases hw; rfl
  | _ => exact absurd rfl h

theorem opField_of_commitOf_idok_ne (h : (commitOf i s).idok ≠ s.idok) : opField w = 4 := by
  cases i with
  | init d => cases hw; exact opField_initWord d
  | _ => exact absurd rfl h

end

/-- Settles O47: a step leaves the three registers or commits, and each command's result writes name
what they change. -/
theorem resultsOnlyByTheirCommands : Obligations.ResultsOnlyByTheirCommands := by
  intro s t h hn
  rcases step_results h hn with hres | ⟨hg, hfin, i, hw, hres⟩
  · obtain ⟨hrdata, hpress, hidok⟩ := State.results_eq_iff.1 hres
    exact ⟨fun hne => absurd hrdata hne, fun hne => absurd hpress hne, fun hne => absurd hidok hne⟩
  · obtain ⟨hrdata, hpress, hidok⟩ := State.results_eq_iff.1 hres
    rw [hrdata, hpress, hidok]
    exact ⟨fun hne => ⟨hg, hfin, opField_of_commitOf_rdata_ne (s := s.beginStep) hw hne⟩,
      fun hne => ⟨hg, hfin, eq_readpWord_of_commitOf_press_ne (s := s.beginStep) hw hne⟩,
      fun hne => ⟨hg, hfin, opField_of_commitOf_idok_ne (s := s.beginStep) hw hne⟩⟩

/-! ### The history (10_state.md R45) -/

/-- The history of `t` is that of `s` with at most one event more. -/
def GrowsByOne (s t : State) : Prop :=
  ∃ es : List Event, t.history = s.history ++ es ∧ es.length ≤ 1

theorem growsByOne_of_eq {s t : State} (h : t.history = s.history) : GrowsByOne s t :=
  ⟨[], by rw [h, List.append_nil], by decide⟩

theorem growsByOne_of_event {s t : State} {e : Event} (h : t.history = s.history ++ [e]) :
    GrowsByOne s t :=
  ⟨[e], h, Nat.le_refl 1⟩

theorem driveCs_growsByOne (a e : Bool) (s : State) : GrowsByOne s (s.driveCs a e) := by
  obtain ⟨-, ⟨-, h⟩ | ⟨-, h⟩⟩ := driveCs_cases a e s
  · exact growsByOne_of_eq h
  · exact growsByOne_of_event h

theorem runOp_growsByOne {commit : State → State} (hf : CommitFrame commit) (s : State)
    (op : MicroOp) : GrowsByOne s (runOp commit s op) := by
  cases op with
  | csa => exact driveCs_growsByOne s.csAssert true s
  | xs b => exact growsByOne_of_event rfl
  | xr b k => exact growsByOne_of_event (setRx_history k _ _)
  | csd => exact driveCs_growsByOne s.csAssert false s
  | fin => rw [runOp_fin hf]; exact growsByOne_of_eq rfl

theorem engineTurn_growsByOne {s t : State} (h : engineTurn s = .next t) : GrowsByOne s t := by
  rcases engineTurn_eq_next_runOp h with rfl | ⟨i, op, -, -, -, rfl⟩
  · exact growsByOne_of_eq rfl
  · exact runOp_growsByOne (commitOf_frame i) s op

theorem shiftLoad_growsByOne (s : State) : GrowsByOne s (shiftLoad s) := by
  rw [shiftLoad_frame]
  exact growsByOne_of_eq rfl

theorem shiftDone_growsByOne (s : State) : GrowsByOne s (shiftDone s) := by
  rcases shiftDone_cases s with ⟨-, h⟩ | ⟨-, -, h⟩ | ⟨-, -, h⟩ <;> rw [h]
  · exact growsByOne_of_eq rfl
  · exact growsByOne_of_event rfl
  · exact growsByOne_of_event rfl

/-- A write's effect records nothing but the CS event of a CSCTL write. -/
theorem writeEffect_history (v : Word) (r : Reg) (s : State) :
    (writeEffect v r s).history = s.history ∨
      (r = .csctl ∧ ∃ b, (writeEffect v r s).history = s.history ++ [.cs b]) := by
  cases r with
  | ctrl => rw [writeEffect, writeCtrl_frame]; exact .inl rfl
  | dr => rw [writeEffect, writeDr_frame]; exact .inl rfl
  | cmd => rw [writeEffect, writeCmd_frame]; exact .inl rfl
  | status | rdata | press => exact .inl rfl
  | csctl =>
    rw [writeEffect]
    rcases writeCsctl_cases v s with h | h | ⟨-, h⟩ <;> rw [h]
    · exact .inl rfl
    · exact .inl rfl
    · obtain ⟨-, ⟨-, hh⟩ | ⟨-, hh⟩⟩ := driveCs_cases (assertBit v) s.engCs s
      · exact .inl hh
      · exact .inr ⟨rfl, _, hh⟩

/-- HOST's turn records at most its access, or the two events of a CSCTL write that moves `cs_n`
(log 10). -/
theorem hostTurn_history {s t : State} (h : hostTurn s = .next t) :
    GrowsByOne s t ∨ ∃ v b, t.history = s.history ++ [.hw 0x0C v, .cs b] := by
  rcases hostTurn_event_cases h with rfl | ⟨r, v, rest, rest', rfl | rfl⟩
  · exact .inl (growsByOne_of_eq rfl)
  · exact .inl (growsByOne_of_event rfl)
  · rcases writeEffect_history v r (({ s with host := rest } : State).record (.hw r.off v)) with
      hh | ⟨rfl, b, hh⟩
    · exact .inl (growsByOne_of_event hh)
    · exact .inr ⟨v, b, hh.trans (List.append_assoc s.history _ _)⟩

/-- Settles O51: each agent's turn records at most one event but for HOST's two of a CSCTL write. -/
theorem historyGrowsByEvents : Obligations.HistoryGrowsByEvents := by
  intro s t h hn
  have hone : GrowsByOne s t ∨
      (nextAgent s = .host ∧ ∃ v b, t.history = s.history ++ [.hw 0x0C v, .cs b]) := by
    rcases step_cases h with ⟨hg, h⟩ | ⟨-, rfl⟩ | ⟨-, rfl⟩ | ⟨-, h⟩ | ⟨hg, -⟩
    · exact (hostTurn_history (s := s.beginStep) h).imp_right fun htwo => ⟨hg, htwo⟩
    · exact .inl (shiftLoad_growsByOne s.beginStep)
    · exact .inl (shiftDone_growsByOne s.beginStep)
    · exact .inl (engineTurn_growsByOne (s := s.beginStep) h)
    · exact absurd hg hn
  rcases hone with ⟨es, hes, hlen⟩ | ⟨hg, v, b, hh⟩
  · exact ⟨es, hes, by omega, fun htwo => by omega⟩
  · exact ⟨_, hh, Nat.le_refl 2, fun _ => ⟨hg, v, b, rfl⟩⟩

end Sys2Proof.Machine
end

section
/-! SUPPORT. The checks of a host access after the clock's (60_exceptions.md R116), and what a register
access answers while the clock is on (20_memory.md R51 to R56). -/

namespace Sys2Proof.Machine

/-! ### The descriptor of an access (30_encoding.md R66) -/

@[simp] theorem descriptorOff_descriptor (isWrite : Bool) (off : BitVec 8) :
    descriptorOff (descriptor isWrite off) = off := by
  revert isWrite off
  decide

@[simp] theorem descriptorIsWrite_descriptor (isWrite : Bool) (off : BitVec 8) :
    descriptorIsWrite (descriptor isWrite off) = isWrite := by
  revert isWrite off
  decide

@[simp] theorem regAt_off (r : Reg) : regAt r.off = some r := by cases r <;> rfl

@[simp] theorem off_aligned (r : Reg) : r.off.extractLsb' 0 2 = 0 := by cases r <;> rfl

theorem lowBits_eq_zero_iff (off : BitVec 8) : off.extractLsb' 0 2 = 0 ↔ off.toNat % 4 = 0 := by
  revert off
  decide

/-- Alignment is looked at before the map. -/
theorem decodeBus_of_misaligned {off : BitVec 8} (h : off.toNat % 4 ≠ 0) (isWrite : Bool)
    (v : Word) :
    decodeBus (descriptor isWrite off) v = .error .misaligned := by
  rw [decodeBus, descriptorOff_descriptor, if_pos (mt (lowBits_eq_zero_iff off).1 h)]

theorem decodeBus_hole (isWrite : Bool) (v : Word) :
    decodeBus (descriptor isWrite 0x1C) v = .error .unmapped := by
  simp [decodeBus, regAt]

theorem decodeBus_off (isWrite : Bool) (r : Reg) (v : Word) :
    decodeBus (descriptor isWrite r.off) v = .ok (if isWrite then r.write v else r.read) := by
  simp [decodeBus]

/-! ### The checks in order -/

theorem hostAccess_of_size {a : Access} {s : State} (hc : s.clkOk = true) (h : a.size ≠ 4) :
    hostAccess a s = .fault .busWidth := by
  simp [hostAccess, hc, h]

/-- A 4-byte access whose descriptor is no instruction is that decode error's bus error. -/
theorem hostAccess_of_decodeError {a : Access} {e : DecodeError} {s : State} (hc : s.clkOk = true)
    (h4 : a.size = 4) (hd : decodeBus (descriptor a.isWrite a.off) a.value = .error e) :
    hostAccess a s = .fault (faultOfDecode e) := by
  simp [hostAccess, hc, h4, hd]

/-! ### Register accesses with the clock on -/

/-- The value a read of a register returns. -/
def readValue : Reg → State → Word
  | .ctrl, s => s.ctrl.setWidth 32
  | .status, s => s.statusWord
  | .dr, s => s.rxbuf.setWidth 32
  | .csctl, s => s.csctlWord
  | .cmd, s => s.cmd
  | .rdata, s => s.rdata
  | .press, s => s.press

/-- No register's value depends on the history. -/
@[simp] theorem readValue_record (r : Reg) (e : Event) (s : State) :
    readValue r (s.record e) = readValue r s := by
  cases r <;> rfl

/-- A read of DR returns its value and clears RXNE. -/
theorem exec_rdDr_of_clock {s : State} (hc : s.clkOk = true) :
    exec .rdDr s = .next (State.record (.hr 0x08 (readValue .dr s)) { s with rxne := false }) :=
  hostRead_eq_next.2 ⟨hc, rfl⟩

/-- A read of any other register returns its value and changes nothing but the history. -/
theorem exec_read_of_clock {r : Reg} {s : State} (hc : s.clkOk = true) (hr : r ≠ .dr) :
    exec r.read s = .next (s.record (.hr r.off (readValue r s))) := by
  cases r with
  | dr => exact absurd rfl hr
  | _ => exact hostRead_eq_next.2 ⟨hc, rfl⟩

/-- A write is its effect after its HW event. -/
theorem exec_write_of_clock {s : State} (hc : s.clkOk = true) (r : Reg) (v : Word) :
    exec (r.write v) s = .next (writeEffect v r (s.record (.hw r.off v))) :=
  exec_write_eq_next.2 ⟨hc, rfl⟩

/-- No register access raises a bus error while the clock is on. -/
theorem exec_access_completes {s : State} (hc : s.clkOk = true) (isWrite : Bool) (r : Reg)
    (v : Word) :
    ∃ t, exec (if isWrite then r.write v else r.read) s = .next t := by
  cases isWrite with
  | true => exact ⟨_, exec_write_of_clock hc r v⟩
  | false =>
    by_cases hr : r = .dr
    · subst hr
      exact ⟨_, exec_rdDr_of_clock hc⟩
    · exact ⟨_, exec_read_of_clock hc hr⟩

/-- Settles O12: by what the decoder answers for the access's descriptor. -/
theorem accessChecks : Obligations.AccessChecks := by
  intro ⟨isWrite, off, size, v⟩ s hc
  refine ⟨hostAccess_of_size hc, fun h4 hoff => ?_, fun h4 hoff => ?_, fun h4 r hoff => ?_⟩
  · exact hostAccess_of_decodeError hc h4 (decodeBus_of_misaligned hoff _ _)
  · subst hoff
    exact hostAccess_of_decodeError hc h4 (decodeBus_hole _ _)
  · subst h4 hoff
    have haccess := hostAccess_of_decodeBus hc (decodeBus_off isWrite r v)
    exact ⟨haccess, haccess ▸ exec_access_completes hc isWrite r v⟩

/-- Settles O29: the first read leaves what the second one returns, for DR with RXNE already 0. -/
theorem readSideEffects : Obligations.ReadSideEffects := by
  refine ⟨fun r s hc hr => ⟨readValue r s, _, rfl, exec_read_of_clock hc hr, ?_⟩,
    fun s hc => ⟨readValue .dr s, _, rfl, exec_rdDr_of_clock hc, exec_rdDr_of_clock hc⟩⟩
  have hsecond := exec_read_of_clock (s := s.record (.hr r.off (readValue r s))) hc hr
  rwa [readValue_record] at hsecond

/-! ### Writes of the value a register reads as (20_memory.md R56) -/

theorem ctrlBits_setWidth (c : BitVec 10) : ctrlBits (c.setWidth 32) = c := by
  ext k hk
  simp [ctrlBits, hk, Nat.lt_trans hk (show 10 < 32 by decide)]

/-- The ASSERT bit of CSCTL's value is ASSERT, whatever the level of `cs_n`. -/
theorem assertBit_csctlWord (s : State) : assertBit s.csctlWord = s.csAssert := by
  have hbits : ∀ a b : Bool, assertBit (bitAt a 0 ||| bitAt b 1) = a := by decide
  exact hbits _ _

/-- With EN = 1 the configuration is the one held, and with EN = 0 the value stored is. -/
theorem writeCtrl_own (s : State) : writeCtrl (s.ctrl.setWidth 32) s = s := by
  have hen : s.ctrl.getLsbD 6 = s.en := rfl
  simp only [writeCtrl, ctrlBits_setWidth, hen]
  cases s.en with
  | true => exact if_pos rfl
  | false => rfl

theorem writeCsctl_own (s : State) : writeCsctl s.csctlWord s = s := by
  rw [writeCsctl, if_pos (assertBit_csctlWord s)]

/-- Settles O30: each effect, on the state that holds the HW event, is of that state's own value. -/
theorem rewriteChangesNothing : Obligations.RewriteChangesNothing := by
  intro s hc
  constructor
  · calc exec (.wrCtrl (s.ctrl.setWidth 32)) s
        = .next (writeCtrl _ (s.record (.hw 0x00 (s.ctrl.setWidth 32)))) :=
          exec_write_of_clock hc .ctrl _
      _ = .next (s.record (.hw 0x00 (s.ctrl.setWidth 32))) := congrArg _ (writeCtrl_own _)
  · calc exec (.wrCsctl s.csctlWord) s
        = .next (writeCsctl _ (s.record (.hw 0x0C s.csctlWord))) := exec_write_of_clock hc .csctl _
      _ = .next (s.record (.hw 0x0C s.csctlWord)) :=
          congrArg _ (writeCsctl_own (s.record (.hw 0x0C s.csctlWord)))

end Sys2Proof.Machine
end

section
/-! SUPPORT. The decoder and the encoder against each other, and against the opcode table:
descriptors (30_encoding.md R66), command words (R67, R73, R75) and framing bytes (R74). -/

namespace Sys2Proof.Machine

/-! ### Descriptors (30_encoding.md R66) -/

theorem regAt_eq_some_iff {off : BitVec 8} {r : Reg} : regAt off = some r ↔ off = r.off := by
  refine ⟨fun h => ?_, fun h => h ▸ regAt_off r⟩
  unfold regAt at h
  repeat' split at h
  all_goals cases h
  all_goals assumption

/-- The descriptors that decode are the registers' reads and writes. -/
theorem decodeBus_eq_ok_iff {d : BitVec 9} {v : Word} {i : Instr} :
    decodeBus d v = .ok i ↔ ∃ (isWrite : Bool) (r : Reg),
      d = descriptor isWrite r.off ∧ i = if isWrite then r.write v else r.read := by
  constructor
  · intro h
    unfold decodeBus at h
    split at h
    · cases h
    split at h
    · cases h
    · next r hr =>
      cases h
      refine ⟨descriptorIsWrite d, r, ?_, rfl⟩
      rw [← regAt_eq_some_iff.1 hr, descriptor_isWrite_off]
  · rintro ⟨isWrite, r, rfl, rfl⟩
    exact decodeBus_off isWrite r v

theorem encode_read (r : Reg) : encode r.read = r.readEncoded := by cases r <;> rfl

theorem encode_write (r : Reg) (v : Word) : encode (r.write v) = r.writeEncoded v := by
  cases r <;> rfl

theorem wellFormed_access (isWrite : Bool) (r : Reg) (v : Word) :
    (if isWrite then r.write v else r.read).wellFormed = true := by
  cases isWrite <;> cases r <;> rfl

/-- A register access's encoding carries the value if it is a write. -/
theorem encode_access (isWrite : Bool) (r : Reg) (v : Word) :
    encode (if isWrite then r.write v else r.read) =
      .bus (descriptor isWrite r.off) (if isWrite then v else 0) := by
  cases isWrite with
  | true => exact encode_write r v
  | false => exact encode_read r

theorem decode_encode_read (r : Reg) : decode (encode r.read) = .ok r.read := by
  rw [encode_read]
  exact decodeBus_off false r 0

theorem decode_encode_write (r : Reg) (v : Word) :
    decode (encode (r.write v)) = .ok (r.write v) := by
  rw [encode_write]
  exact decodeBus_off true r v

/-- The encoding of a decoded descriptor is that descriptor, without a value if it is a read. -/
theorem encode_of_decodeBus {d : BitVec 9} {v : Word} {i : Instr} (h : decodeBus d v = .ok i) :
    i.wellFormed = true ∧ encode i = .bus d (if descriptorIsWrite d then v else 0) := by
  obtain ⟨isWrite, r, rfl, rfl⟩ := decodeBus_eq_ok_iff.1 h
  rw [descriptorIsWrite_descriptor]
  exact ⟨wellFormed_access isWrite r v, encode_access isWrite r v⟩

/-- An access whose descriptor is no instruction raises a bus error, whatever its size. -/
theorem hostAccess_faults_of_decodeError {a : Access} {e : DecodeError}
    (hd : decodeBus (descriptor a.isWrite a.off) a.value = .error e) (s : State) :
    ∃ f, hostAccess a s = .fault f := by
  cases hc : s.clkOk with
  | false => exact ⟨_, hostAccess_of_no_clock hc a⟩
  | true =>
    by_cases h4 : a.size = 4
    · exact ⟨_, hostAccess_of_decodeError hc h4 hd⟩
    · exact ⟨_, hostAccess_of_size hc h4⟩

/-- The fourteen descriptors of the map. -/
def mapDescriptors : List (BitVec 9) :=
  [0x000, 0x100, 0x004, 0x104, 0x008, 0x108, 0x00C, 0x10C, 0x010, 0x110, 0x014, 0x114, 0x018, 0x118]

theorem descriptor_off_mem_mapDescriptors (isWrite : Bool) (r : Reg) :
    descriptor isWrite r.off ∈ mapDescriptors := by
  cases isWrite <;> cases r <;> decide

theorem decodeBus_of_not_mem_mapDescriptors {d : BitVec 9} (hd : d ∉ mapDescriptors) (v : Word) :
    ∃ e, decodeBus d v = .error e := by
  cases h : decodeBus d v with
  | error e => exact ⟨e, rfl⟩
  | ok i =>
    obtain ⟨isWrite, r, rfl, -⟩ := decodeBus_eq_ok_iff.1 h
    exact absurd (descriptor_off_mem_mapDescriptors isWrite r) hd

/-- Settles O1: a register's two descriptors decode to its accesses, and no other descriptor
decodes. -/
theorem busDescriptorsOfTheMap : Obligations.BusDescriptorsOfTheMap := by
  intro d v
  refine ⟨decodeBus_off false .ctrl v, decodeBus_off true .ctrl v,
    decodeBus_off false .status v, decodeBus_off true .status v,
    decodeBus_off false .dr v, decodeBus_off true .dr v,
    decodeBus_off false .csctl v, decodeBus_off true .csctl v,
    decodeBus_off false .cmd v, decodeBus_off true .cmd v,
    decodeBus_off false .rdata v, decodeBus_off true .rdata v,
    decodeBus_off false .press v, decodeBus_off true .press v,
    fun hd => ⟨decodeBus_of_not_mem_mapDescriptors hd v, ?_⟩⟩
  rintro a s rfl
  obtain ⟨e, he⟩ := decodeBus_of_not_mem_mapDescriptors hd a.value
  exact hostAccess_faults_of_decodeError he s

/-! ### Legal command words (30_encoding.md R67, R73) -/

theorem legal_eq_true_iff {w : Word} :
    legal w = true ↔ reserved6 w = 0 ∧ reserved14 w = 0 ∧ reserved24 w = 0 ∧
      ((opField w = 1 ∧ cntField w = 0 ∧ dataField w = 0) ∨
       (opField w = 2 ∧ cntField w ≠ 0 ∧ dataField w = 0) ∨
       (opField w = 3 ∧ cntField w = 0) ∨
       (opField w = 4 ∧ cntField w = 0 ∧ addrField w = 0) ∨
       (opField w = 5 ∧ cntField w = 0 ∧ addrField w = 0 ∧ dataField w = 0)) := by
  simp only [legal, Bool.and_eq_true, Bool.or_eq_true, beq_iff_eq, bne_iff_ne, and_assoc, or_assoc]

/-- Legal words that agree in the four fields are equal: their reserved bits are 0. -/
theorem eq_of_legal_of_fields {u w : Word} (hu : legal u = true) (hw : legal w = true)
    (hop : opField u = opField w) (hcnt : cntField u = cntField w)
    (haddr : addrField u = addrField w) (hdata : dataField u = dataField w) : u = w := by
  obtain ⟨hu6, hu14, hu24, -⟩ := legal_eq_true_iff.1 hu
  obtain ⟨hw6, hw14, hw24, -⟩ := legal_eq_true_iff.1 hw
  exact word_eq_of_fields hop hcnt (hu6.trans hw6.symm) haddr (hu14.trans hw14.symm) hdata
    (hu24.trans hw24.symm)

/-- A legal word is one of the five symbolic words of R76. -/
theorem legal_cases {w : Word} (h : legal w = true) :
    (∃ a, w = read1Word a) ∨ (∃ a n, n ≠ 0 ∧ w = readnWord a n) ∨ (∃ a d, w = writeWord a d) ∨
      (∃ d, w = initWord d) ∨ w = readpWord := by
  obtain ⟨-, -, -, h1 | h2 | h3 | h4 | h5⟩ := legal_eq_true_iff.1 h
  · obtain ⟨hop, hcnt, hdata⟩ := h1
    exact .inl ⟨addrField w, eq_of_legal_of_fields h (by simp) (by simp [hop]) (by simp [hcnt])
      (by simp) (by simp [hdata])⟩
  · obtain ⟨hop, hcnt, hdata⟩ := h2
    exact .inr (.inl ⟨addrField w, cntField w, hcnt, eq_of_legal_of_fields h
      (by simpa using hcnt) (by simp [hop]) (by simp) (by simp) (by simp [hdata])⟩)
  · obtain ⟨hop, hcnt⟩ := h3
    exact .inr (.inr (.inl ⟨addrField w, dataField w, eq_of_legal_of_fields h (by simp)
      (by simp [hop]) (by simp [hcnt]) (by simp) (by simp)⟩))
  · obtain ⟨hop, hcnt, haddr⟩ := h4
    exact .inr (.inr (.inr (.inl ⟨dataField w, eq_of_legal_of_fields h (by simp) (by simp [hop])
      (by simp [hcnt]) (by simp [haddr]) (by simp)⟩)))
  · obtain ⟨hop, hcnt, haddr, hdata⟩ := h5
    exact .inr (.inr (.inr (.inr (eq_of_legal_of_fields h rfl hop hcnt haddr hdata))))

theorem opField_toNat (w : Word) : (opField w).toNat = w.toNat % 16 := by simp [opField]

theorem cntField_toNat (w : Word) : (cntField w).toNat = w.toNat / 16 % 4 := by
  simp [cntField, Nat.shiftRight_eq_div_pow]

theorem addrField_toNat (w : Word) : (addrField w).toNat = w.toNat / 256 % 64 := by
  simp [addrField, Nat.shiftRight_eq_div_pow]

theorem dataField_toNat (w : Word) : (dataField w).toNat = w.toNat / 65536 % 256 := by
  simp [dataField, Nat.shiftRight_eq_div_pow]

theorem reserved6_toNat (w : Word) : (reserved6 w).toNat = w.toNat / 64 % 4 := by
  simp [Nat.shiftRight_eq_div_pow]

theorem reserved14_toNat (w : Word) : (reserved14 w).toNat = w.toNat / 16384 % 4 := by
  simp [Nat.shiftRight_eq_div_pow]

/-- The topmost field needs no modulus. -/
theorem reserved24_toNat (w : Word) : (reserved24 w).toNat = w.toNat / 16777216 := by
  have hlt := w.isLt
  simp only [BitVec.extractLsb'_toNat, Nat.shiftRight_eq_div_pow]
  omega

/-- An idle engine refuses an illegal word. -/
theorem writeCmd_of_illegal {w : Word} {s : State} (hb : s.ebusy = false) (hl : legal w = false) :
    writeCmd w s = s.setErrCmd := by
  simp [writeCmd, hb, hl]

/-- Settles O2: the write's effect is ERR_CMD after its HW event, and each field is some
digits of the word. -/
theorem legalCommandWords : Obligations.LegalCommandWords := by
  refine ⟨fun w s hl hc hb => ?_, fun w => ?_⟩
  · calc exec (.wrCmd w) s
        = .next (writeCmd w (s.record (.hw 0x10 w))) := exec_write_of_clock hc .cmd w
      _ = .next (s.record (.hw 0x10 w)).setErrCmd :=
          congrArg _ (writeCmd_of_illegal (s := s.record (.hw 0x10 w)) hb hl)
  · simp only [legal_eq_true_iff, ne_eq, ← BitVec.toNat_inj, opField_toNat, cntField_toNat,
      addrField_toNat, dataField_toNat, reserved6_toNat, reserved14_toNat, reserved24_toNat]
    rfl

/-! ### Decoding command words (30_encoding.md R75, R76) -/

theorem decodeCmd_of_illegal {w : Word} (h : legal w = false) :
    decodeCmd w = .error .illegalCommand := by
  simp [decodeCmd, h]

@[simp] theorem decodeCmd_read1Word (a : SensorAddr) :
    decodeCmd (read1Word a) = .ok (.read1 a) := by
  simp [decodeCmd]

@[simp] theorem decodeCmd_readnWord (a : SensorAddr) {n : BitVec 2} (hn : n ≠ 0) :
    decodeCmd (readnWord a n) = .ok (.readn a n) := by
  simpa [decodeCmd] using hn

@[simp] theorem decodeCmd_writeWord (a : SensorAddr) (d : Byte) :
    decodeCmd (writeWord a d) = .ok (.write a d) := by
  simp [decodeCmd]

@[simp] theorem decodeCmd_initWord (d : Byte) : decodeCmd (initWord d) = .ok (.init d) := by
  simp [decodeCmd]

@[simp] theorem decodeCmd_readpWord : decodeCmd readpWord = .ok .readp := rfl

/-- Settles O6: an access by its register's descriptor, a command by its symbolic word. -/
theorem decodeEncode : Obligations.DecodeEncode := by
  intro i hwf
  cases i with
  | rdCtrl => exact decode_encode_read .ctrl
  | wrCtrl v => exact decode_encode_write .ctrl v
  | rdStatus => exact decode_encode_read .status
  | wrStatus v => exact decode_encode_write .status v
  | rdDr => exact decode_encode_read .dr
  | wrDr v => exact decode_encode_write .dr v
  | rdCsctl => exact decode_encode_read .csctl
  | wrCsctl v => exact decode_encode_write .csctl v
  | rdCmd => exact decode_encode_read .cmd
  | wrCmd v => exact decode_encode_write .cmd v
  | rdRdata => exact decode_encode_read .rdata
  | wrRdata v => exact decode_encode_write .rdata v
  | rdPress => exact decode_encode_read .press
  | wrPress v => exact decode_encode_write .press v
  | read1 a => exact decodeCmd_read1Word a
  | readn a n => exact decodeCmd_readnWord a (bne_iff_ne.1 hwf)
  | write a d => exact decodeCmd_writeWord a d
  | init d => exact decodeCmd_initWord d
  | readp => exact decodeCmd_readpWord

/-- The encoding of a decoded command word is that word. -/
theorem encode_of_decodeCmd {w : Word} {i : Instr} (h : decodeCmd w = .ok i) :
    i.wellFormed = true ∧ encode i = .cmd w := by
  rcases legal_cases (decodeCmd_command h).1 with
    ⟨a, rfl⟩ | ⟨a, n, hn, rfl⟩ | ⟨a, d, rfl⟩ | ⟨d, rfl⟩ | rfl
  · cases (decodeCmd_read1Word a).symm.trans h
    exact ⟨rfl, rfl⟩
  · cases (decodeCmd_readnWord a hn).symm.trans h
    exact ⟨bne_iff_ne.2 hn, rfl⟩
  · cases (decodeCmd_writeWord a d).symm.trans h
    exact ⟨rfl, rfl⟩
  · cases (decodeCmd_initWord d).symm.trans h
    exact ⟨rfl, rfl⟩
  · cases decodeCmd_readpWord.symm.trans h
    exact ⟨rfl, rfl⟩

/-- Settles O7: by the two decoders. -/
theorem encodeDecode : Obligations.EncodeDecode :=
  ⟨fun _ _ => encode_of_decodeCmd, fun _ _ _ => encode_of_decodeBus⟩

/-! ### The CMD rows of the opcode table -/

/-- The value of OP that a CMD row fixes. -/
def rowOp (row : OpcodeRow) : BitVec 4 := opField (BitVec.ofNat 32 row.value)

/-- Every CMD row fixes the whole of OP. -/
theorem opField_mask {row : OpcodeRow} (hrow : row ∈ commandRows) :
    opField (BitVec.ofNat 32 row.mask) = BitVec.allOnes 4 := by
  revert row
  decide

theorem opField_of_coversWord {row : OpcodeRow} {w : Word} (hrow : row ∈ commandRows)
    (h : row.coversWord w = true) : rowOp row = opField w := by
  calc rowOp row = opField (w &&& BitVec.ofNat 32 row.mask) := by rw [rowOp, ← beq_iff_eq.1 h]
    _ = opField w &&& opField (BitVec.ofNat 32 row.mask) := BitVec.extractLsb'_and
    _ = opField w := by rw [opField_mask hrow, BitVec.and_allOnes]

section
variable {i : Instr} {w : Word} (hw : encode i = .cmd w)
include hw

/-- A well-formed command's word falls under its own row. -/
theorem opcodeRow_coversWord (hwf : i.wellFormed = true) :
    (opcodeRow i).coversWord w = true := by
  cases i with
  | read1 a => cases hw; exact Laws.TableRow.read1 a hwf
  | readn a n => cases hw; exact Laws.TableRow.readn a n hwf
  | write a d => cases hw; exact Laws.TableRow.write a d hwf
  | init d => cases hw; exact Laws.TableRow.init d hwf
  | readp => cases hw; exact Laws.TableRow.readp hwf
  | _ => cases hw

/-- The five rows differ in OP, so a command's OP picks its own row. -/
theorem commandRows_filter_rowOp :
    commandRows.filter (fun row => rowOp row == opField w) = [opcodeRow i] := by
  cases i with
  | read1 a => cases hw; rw [opField_read1Word]; rfl
  | readn a n => cases hw; rw [opField_readnWord]; rfl
  | write a d => cases hw; rw [opField_writeWord]; rfl
  | init d => cases hw; rw [opField_initWord]; rfl
  | readp => cases hw; rfl
  | _ => cases hw

/-- A well-formed command's word falls under a row iff the row's OP is its own. -/
theorem coversWord_iff_rowOp (hwf : i.wellFormed = true) {row : OpcodeRow}
    (hrow : row ∈ commandRows) : row.coversWord w = true ↔ rowOp row = opField w := by
  refine ⟨opField_of_coversWord hrow, fun hop => ?_⟩
  have hmem : row ∈ commandRows.filter (fun row => rowOp row == opField w) :=
    List.mem_filter.2 ⟨hrow, beq_iff_eq.2 hop⟩
  rw [commandRows_filter_rowOp hw, List.mem_singleton] at hmem
  exact hmem ▸ opcodeRow_coversWord hw hwf

theorem commandRows_filter_coversWord (hwf : i.wellFormed = true) :
    commandRows.filter (fun row => row.coversWord w) = [opcodeRow i] := by
  rw [← commandRows_filter_rowOp hw]
  refine List.filter_congr fun row hrow => Bool.eq_iff_iff.2 ?_
  rw [coversWord_iff_rowOp hw hwf hrow, beq_iff_eq]

end

/-- Settles O3: a legal word is the encoding of what it decodes to, whose OP picks one row. -/
theorem legalWordHasOneRow : Obligations.LegalWordHasOneRow := by
  refine fun w => ⟨decodeCmd_of_illegal, fun hl => ?_⟩
  obtain ⟨i, hi⟩ := legal_decodes hl
  obtain ⟨hwf, hw⟩ := encode_of_decodeCmd hi
  exact ⟨i, hi, hwf, commandRows_filter_coversWord hw hwf⟩

/-! ### Framing bytes and sample words (30_encoding.md R74, R76) -/

theorem readFrame_eq_append (a : SensorAddr) : readFrame a = 0b1#1 ++ 0b0#1 ++ a := by
  revert a
  decide

theorem incFrame_eq_append (a : SensorAddr) : incFrame a = 0b1#1 ++ 0b1#1 ++ a := by
  revert a
  decide

theorem writeFrame_eq_append (a : SensorAddr) : writeFrame a = 0b0#1 ++ 0b0#1 ++ a := by
  revert a
  decide

/-- Settles O4: the ORs define the framing bytes, and the concatenations equal them. -/
theorem framingBytes : Obligations.FramingBytes :=
  ⟨fun a => ⟨rfl, rfl, rfl, readFrame_eq_append a, incFrame_eq_append a, writeFrame_eq_append a⟩,
    rfl, rfl, rfl⟩

/-- Settles O5: each word is the descriptor or the symbolic word of its instruction. -/
theorem sampleWordsDecode : Obligations.SampleWordsDecode :=
  ⟨decodeBus_off true .dr 0x8F, decodeBus_off false .press 0, decodeCmd_read1Word 0x0F,
    decodeCmd_readnWord 0x28 (n := 3) (by decide), decodeCmd_writeWord 0x20 0x90,
    decodeCmd_initWord 0x90, decodeCmd_readpWord⟩

end Sys2Proof.Machine
end

section
/-! SUPPORT. CTRL (40_spi_exchange.md R78, R79): the bits a write stores, and what it does in each
branch of R79's pseudocode. -/

namespace Sys2Proof.Machine

/-! ### The bits of a written value (10_state.md R20, R21) -/

theorem ctrlBits_eq_setWidth (v : Word) : ctrlBits v = v.setWidth 10 :=
  (BitVec.setWidth_eq_extractLsb' (by decide)).symm

theorem getLsbD_ctrlBits_en (v : Word) : (ctrlBits v).getLsbD 6 = v.getLsbD 6 := by
  rw [ctrlBits_eq_setWidth, BitVec.getLsbD_setWidth]
  exact Bool.true_and _

/-- A register value holds CTRL's ten bits unchanged. -/
theorem setWidth_ctrl_inj {a b : BitVec 10} : a.setWidth 32 = b.setWidth 32 ↔ a = b :=
  (Function.LeftInverse.injective ctrlBits_setWidth).eq_iff

/-- Masking the stored bits is masking the value. -/
theorem setWidth_ctrlBits_and (v : Word) (m : BitVec 10) :
    (ctrlBits v &&& m).setWidth 32 = v &&& m.setWidth 32 := by
  ext k hk
  by_cases hm : k < 10
  · simp [ctrlBits_eq_setWidth, hk, hm]
  · simp [ctrlBits_eq_setWidth, hk, hm, BitVec.getLsbD_of_ge m k (Nat.le_of_not_lt hm)]

/-- SUPPORTED_CFG as R79 compares it, on the written value. -/
theorem cfgBits_ctrlBits_eq_supported_iff (v : Word) :
    cfgBits (ctrlBits v) = supportedCfg ↔ v &&& 0x000003BF = 0x0000031F := by
  rw [← setWidth_ctrl_inj, cfgBits, setWidth_ctrlBits_and]
  rfl

/-- CTRL is its configuration fields and EN. -/
theorem cfgBits_or_en : ∀ c : BitVec 10, cfgBits c ||| (if c.getLsbD 6 then enBit else 0) = c := by
  decide

/-- A value that enables names the configuration held exactly if it is the value held. -/
theorem cfgBits_ctrlBits_eq_own_iff {v : Word} {c : BitVec 10} (hv : v.getLsbD 6 = true)
    (hc : c.getLsbD 6 = true) :
    cfgBits (ctrlBits v) = cfgBits c ↔ v &&& 0x000003FF = c.setWidth 32 := by
  have hbits : v &&& 0x000003FF = (ctrlBits v).setWidth 32 := by
    have hand := setWidth_ctrlBits_and v 0x3FF
    rwa [show (0x3FF : BitVec 10) = BitVec.allOnes 10 from rfl, BitVec.and_allOnes, eq_comm] at hand
  rw [hbits, setWidth_ctrl_inj]
  refine ⟨fun h => ?_, congrArg cfgBits⟩
  rw [← cfgBits_or_en (ctrlBits v), ← cfgBits_or_en c, h, getLsbD_ctrlBits_en, hv, hc]

/-! ### The branches of R79 -/

section
variable {v : Word} {s : State}

theorem writeCtrl_store_disabled (hen : s.en = false) (hv : v.getLsbD 6 = false) :
    writeCtrl v s = { s with ctrl := ctrlBits v } := by
  simp only [writeCtrl, getLsbD_ctrlBits_en, hen, hv, Bool.false_eq_true, if_false]

theorem writeCtrl_enable (hen : s.en = false) (hv : v.getLsbD 6 = true)
    (hcfg : v &&& 0x000003BF = 0x0000031F) : writeCtrl v s = { s with ctrl := 0x35F } := by
  have hbits : ctrlBits v = 0x35F :=
    eq_of_supported_enabled _ ((cfgBits_ctrlBits_eq_supported_iff v).2 hcfg)
      ((getLsbD_ctrlBits_en v).trans hv)
  rw [← hbits]
  simp only [writeCtrl, getLsbD_ctrlBits_en, cfgBits_ctrlBits_eq_supported_iff, hen, hv, hcfg,
    Bool.false_eq_true, if_true, if_false]

theorem writeCtrl_refuse_enable (hen : s.en = false) (hv : v.getLsbD 6 = true)
    (hcfg : v &&& 0x000003BF ≠ 0x0000031F) : writeCtrl v s = s.setErrCfg := by
  simp only [writeCtrl, getLsbD_ctrlBits_en, cfgBits_ctrlBits_eq_supported_iff, hen, hv, hcfg,
    Bool.false_eq_true, if_true, if_false]

theorem writeCtrl_rewrite (hen : s.en = true) (hv : v.getLsbD 6 = true)
    (hcfg : v &&& 0x000003FF = s.ctrl.setWidth 32) : writeCtrl v s = s := by
  simp only [writeCtrl, getLsbD_ctrlBits_en, cfgBits_ctrlBits_eq_own_iff hv hen, hen, hv, hcfg,
    if_true]

theorem writeCtrl_refuse_reconfigure (hen : s.en = true) (hv : v.getLsbD 6 = true)
    (hcfg : v &&& 0x000003FF ≠ s.ctrl.setWidth 32) : writeCtrl v s = s.setErrCfg := by
  simp only [writeCtrl, getLsbD_ctrlBits_en, cfgBits_ctrlBits_eq_own_iff hv hen, hen, hv, hcfg,
    if_true, if_false]

theorem writeCtrl_refuse_disable (hen : s.en = true) (hv : v.getLsbD 6 = false)
    (hb : s.bsy = true) : writeCtrl v s = s.setErrBusy := by
  simp only [writeCtrl, getLsbD_ctrlBits_en, hen, hv, hb, Bool.false_eq_true, if_true, if_false]

theorem writeCtrl_disable (hen : s.en = true) (hv : v.getLsbD 6 = false) (hb : s.bsy = false) :
    writeCtrl v s = { s with ctrl := ctrlBits v } := by
  simp only [writeCtrl, getLsbD_ctrlBits_en, hen, hv, hb, Bool.false_eq_true, if_true, if_false]

/-- EN = 0 implies BSY = 0 stays true: a write that leaves EN = 0 stores while SPIM is not busy, or
changes neither. -/
theorem writeCtrl_disabled_idle (h : s.en = false → s.bsy = false)
    (hen : (writeCtrl v s).en = false) : (writeCtrl v s).bsy = false := by
  rcases writeCtrl_cases v s with hw | hw | hw | ⟨hw, hc⟩ <;> rw [hw] at hen ⊢
  · exact h hen
  · exact h hen
  · exact h hen
  · rcases hc with hc | ⟨-, hidle⟩
    · exact absurd (hc ▸ hen) (by decide : ¬ (0x35F : BitVec 10).getLsbD 6 = false)
    · cases hs : s.en with
      | false => exact h hs
      | true => exact hidle hs

end

/-- Settles O16: each branch of R79 is the write's effect on the state that holds its HW event. -/
theorem writeCtrl_holds : Obligations.WriteCtrl := by
  rintro s h v hc rfl
  have hexec := exec_write_of_clock hc .ctrl v
  rw [← ctrlBits_eq_setWidth]
  exact ⟨decodeBus_off true .ctrl v,
    fun hen hv => hexec.trans (congrArg _ (writeCtrl_store_disabled hen hv)),
    fun hen hv hcfg => hexec.trans (congrArg _ (writeCtrl_enable hen hv hcfg)),
    fun hen hv hcfg => hexec.trans (congrArg _ (writeCtrl_refuse_enable hen hv hcfg)),
    fun hen hv hcfg => hexec.trans (congrArg _ (writeCtrl_rewrite hen hv hcfg)),
    fun hen hv hcfg => hexec.trans (congrArg _ (writeCtrl_refuse_reconfigure hen hv hcfg)),
    fun hen hv hb => hexec.trans (congrArg _ (writeCtrl_refuse_disable hen hv hb)),
    fun hen hv hb => hexec.trans (congrArg _ (writeCtrl_disable hen hv hb)),
    fun hidle => ⟨_, hexec, writeCtrl_disabled_idle hidle⟩⟩

/-- Settles O15: the read returns CTRL, which a refused enable leaves and WR CTRL 0x35F sets. -/
theorem readCtrl : Obligations.ReadCtrl := by
  intro s v hc
  have hexec := exec_write_of_clock hc .ctrl
  refine ⟨decodeBus_off false .ctrl v, exec_read_of_clock (r := .ctrl) hc (by decide),
    fun k hk => ?_, fun hen hv hcfg => ?_, fun hen => ?_⟩
  · rw [BitVec.getLsbD_setWidth, BitVec.getLsbD_of_ge _ _ hk, Bool.and_false]
  · have hrefuse := (hexec v).trans (congrArg _ (writeCtrl_refuse_enable hen hv hcfg))
    exact ⟨_, hrefuse, rfl⟩
  · have henable := (hexec 0x35F).trans (congrArg _ (writeCtrl_enable hen rfl (by decide)))
    exact ⟨_, henable, exec_read_of_clock (r := .ctrl) hc (by decide)⟩

end Sys2Proof.Machine
end

section
/-! SUPPORT. STATUS, DR and CSCTL (40_spi_exchange.md R80 to R85): the bits of the values read and what
each write does in each of its branches. -/

namespace Sys2Proof.Machine

/-! ### The bits of the values read -/

/-- A placed bit is the only one. -/
theorem getLsbD_bitAt (b : Bool) {k : Nat} (hk : k < 32) (i : Nat) :
    (bitAt b k).getLsbD i = (decide (i = k) && b) := by
  simp only [bitAt, BitVec.getLsbD_shiftLeft, BitVec.getLsbD_setWidth, BitVec.getLsbD_ofBool]
  by_cases hi : i = k
  · subst hi
    simp [hk]
  · have hoff : i < k ∨ i - k ≠ 0 := by omega
    rcases hoff with h | h <;> simp [hi, h]

/-- Bit `i` of a STATUS value (10_state.md R22 to R32): the flag that stands there, else 0. -/
theorem getLsbD_statusWord (s : State) (i : Nat) :
    s.statusWord.getLsbD i =
      ((decide (i = 0) && s.rxne) || (decide (i = 1) && s.txe) || (decide (i = 6) && s.ovr) ||
       (decide (i = 7) && s.bsy) || (decide (i = 16) && s.ebusy) || (decide (i = 17) && s.done) ||
       (decide (i = 18) && s.idok) || (decide (i = 24) && s.errCmd) ||
       (decide (i = 25) && s.errBusy) || (decide (i = 26) && s.errCfg) ||
       (decide (i = 27) && s.errTxovw)) := by
  simp only [State.statusWord, BitVec.getLsbD_or, getLsbD_bitAt, Nat.reduceLT]

theorem getLsbD_csctlWord (s : State) (i : Nat) :
    s.csctlWord.getLsbD i = ((decide (i = 0) && s.csAssert) || (decide (i = 1) && s.csN)) := by
  simp only [State.csctlWord, BitVec.getLsbD_or, getLsbD_bitAt, Nat.reduceLT]

/-- R80's reserved bits. -/
theorem getLsbD_statusWord_reserved (s : State) {k : Nat}
    (hk : k ∉ [0, 1, 6, 7, 16, 17, 18, 24, 25, 26, 27]) : s.statusWord.getLsbD k = false := by
  simp_all [getLsbD_statusWord]

/-- Settles O18: each bit of the value read, and at reset TXE alone is set. -/
theorem readStatus : Obligations.ReadStatus := by
  intro s hc
  refine ⟨decodeBus_off false .status 0,
    ⟨s.statusWord, exec_read_of_clock (r := .status) hc (by decide), ?_⟩,
    exec_read_of_clock (r := .status) (s := State.reset) rfl (by decide)⟩
  refine ⟨?_, ?_, ?_, ?_, ?_, ?_, ?_, ?_, ?_, ?_, ?_, fun k => getLsbD_statusWord_reserved s⟩
  all_goals
    rw [getLsbD_statusWord]
    simp [State.bsy]

/-! ### STATUS writes -/

/-- Bits 6, 17, 24, 25, 26 and 27: the sticky bits (R81). -/
def stickyMask : Word := 0x0F020040

/-- A STATUS write clears in the value read exactly the sticky bits written with 1. -/
theorem statusWord_clearSticky (v : Word) (s : State) :
    (s.clearSticky v).statusWord = s.statusWord &&& ~~~(v &&& stickyMask) := by
  apply BitVec.eq_of_getLsbD_eq
  intro k hk
  rw [BitVec.getLsbD_and, BitVec.getLsbD_not, BitVec.getLsbD_and, getLsbD_statusWord,
    getLsbD_statusWord]
  interval_cases k <;> simp [State.clearSticky, State.bsy, stickyMask]

/-- Settles O19: the flags one by one, and all of them in the value read. -/
theorem writeStatus : Obligations.WriteStatus := by
  intro s v hc
  have hflag : ∀ b c : Bool, (b && !c) = if c then false else b := by decide
  refine ⟨decodeBus_off true .status v, ?_,
    fun hs => ⟨_, exec_write_of_clock hc .status 0xFFFFFFFF, ?_⟩⟩
  · rw [← hflag, ← hflag, ← hflag, ← hflag, ← hflag, ← hflag]
    exact exec_write_of_clock hc .status v
  · calc (writeEffect 0xFFFFFFFF .status (s.record _)).statusWord
        = s.statusWord &&& ~~~(0xFFFFFFFF &&& stickyMask) := statusWord_clearSticky _ (s.record _)
      _ = 0x00000002 := by rw [hs]; rfl

/-! ### DR -/

theorem drByte_eq_setWidth (v : Word) : drByte v = v.setWidth 8 :=
  (BitVec.setWidth_eq_extractLsb' (by decide)).symm

/-- The value just read is the last HR event's. -/
@[simp] theorem lastRead_record_hr (off : BitVec 8) (v : Word) (s : State) :
    (s.record (.hr off v)).lastRead = some v := by
  simp [State.lastRead]

/-- Settles O21: the value is RXBUF's, zero-extended, in the HR event. -/
theorem readDr : Obligations.ReadDr := by
  intro s v hc
  refine ⟨decodeBus_off false .dr v, exec_rdDr_of_clock hc,
    fun hb => ⟨_, exec_rdDr_of_clock hc, ?_, rfl⟩⟩
  rw [lastRead_record_hr, readValue, hb]
  rfl

theorem writeDr_of_disabled {s : State} (v : Word) (hen : s.en = false) :
    writeDr v s = s.setErrCfg := by
  simp [writeDr, hen]

theorem writeDr_of_ebusy {s : State} (v : Word) (hen : s.en = true) (hb : s.ebusy = true) :
    writeDr v s = s.setErrBusy := by
  simp [writeDr, hen, hb]

theorem writeDr_of_full {s : State} (v : Word) (hen : s.en = true) (hb : s.ebusy = false)
    (ht : s.txe = false) : writeDr v s = s.setErrTxovw := by
  simp [writeDr, hen, hb, ht]

theorem writeDr_of_accepted {s : State} (v : Word) (hen : s.en = true) (hb : s.ebusy = false)
    (ht : s.txe = true) : writeDr v s = { s with txbuf := v.setWidth 8, txe := false } := by
  simp [writeDr, drByte_eq_setWidth, hen, hb, ht]

/-- Settles O22: each check of R83 is the write's effect on the state that holds its HW event. -/
theorem writeDr_holds : Obligations.WriteDr := by
  rintro s h v hc rfl
  have hexec := exec_write_of_clock hc .dr v
  exact ⟨decodeBus_off true .dr v,
    fun hen => hexec.trans (congrArg _ (writeDr_of_disabled v hen)),
    fun hen hb => hexec.trans (congrArg _ (writeDr_of_ebusy v hen hb)),
    fun hen hb ht => hexec.trans (congrArg _ (writeDr_of_full v hen hb ht)),
    fun hen hb ht => hexec.trans (congrArg _ (writeDr_of_accepted v hen hb ht))⟩

/-! ### CSCTL -/

/-- While the engine holds chip-select and ASSERT = 0 a read shows neither. -/
theorem csctlWord_of_engine {s : State} (ha : s.csAssert = false) (he : s.engCs = true) :
    s.csctlWord = 0 := by
  simp only [State.csctlWord, State.csN, ha, he]
  rfl

/-- Settles O23: bit 0 is ASSERT and bit 1 is `cs_n`, here after reset and after SELECT too. -/
theorem readCsctl : Obligations.ReadCsctl := by
  intro s hc
  have hbit := getLsbD_csctlWord s
  refine ⟨decodeBus_off false .csctl 0,
    ⟨s.csctlWord, exec_read_of_clock (r := .csctl) hc (by decide), ?_, ?_, fun k hk => ?_,
      csctlWord_of_engine⟩,
    exec_read_of_clock (r := .csctl) (s := State.reset) rfl (by decide),
    ⟨_, exec_write_of_clock (s := State.reset) rfl .csctl 0x1,
      exec_read_of_clock (r := .csctl) rfl (by decide)⟩⟩
  · exact (hbit 0).trans (by simp)
  · exact (hbit 1).trans (by simp [State.csN])
  · rw [hbit, decide_eq_false (by omega), decide_eq_false (by omega)]
    rfl

theorem writeCsctl_of_refused {s : State} {v : Word} (ha : assertBit v ≠ s.csAssert)
    (hb : s.bsy = true) : writeCsctl v s = s.setErrBusy := by
  rw [writeCsctl, if_neg ha, if_pos hb]

/-- With the engine's request on, ASSERT changes and `cs_n` does not move. -/
theorem writeCsctl_of_engine {s : State} {v : Word} (ha : assertBit v ≠ s.csAssert)
    (hb : s.bsy = false) (he : s.engCs = true) :
    writeCsctl v s = { s with csAssert := assertBit v } := by
  simp [writeCsctl, ha, hb, State.driveCs, State.csN, he]

/-- With the engine's request off, `cs_n` moves with ASSERT. -/
theorem writeCsctl_of_manual {s : State} {v : Word} (ha : assertBit v ≠ s.csAssert)
    (hb : s.bsy = false) (he : s.engCs = false) :
    writeCsctl v s =
      State.record (.cs (!assertBit v)) { s with csAssert := assertBit v } := by
  simp [writeCsctl, ha, hb, State.driveCs, State.csN, he]

/-- Settles O24: each branch of R85 is the write's effect on the state that holds its HW event. -/
theorem writeCsctl_holds : Obligations.WriteCsctl := by
  rintro s h v hc rfl
  have hexec := exec_write_of_clock hc .csctl v
  refine ⟨decodeBus_off true .csctl v,
    fun ha => hexec.trans (congrArg _ (if_pos ha)),
    fun ha hb => hexec.trans (congrArg _ (writeCsctl_of_refused ha hb)),
    fun ha hb he => ?_,
    fun ha hb he => hexec.trans (congrArg _ (writeCsctl_of_engine ha hb he))⟩
  have hmove := hexec.trans (congrArg _ (writeCsctl_of_manual ha hb he))
  refine ⟨_, hmove, rfl, ?_⟩
  simp [wireHistory, Event.onWire, assertBit]

end Sys2Proof.Machine
end

section
/-! SUPPORT. The shifter's two steps (40_spi_exchange.md R86, R87), a manual exchange (R90) and the bit
level of an exchange (R88). -/

namespace Sys2Proof.Machine

/-! ### The shifter -/

theorem shiftLoadEnabled_iff {s : State} : shiftLoadEnabled s = true ↔
    s.clkOk = true ∧ s.en = true ∧ s.txe = false ∧ s.shActive = false := by
  simp [shiftLoadEnabled, and_assoc]

theorem shiftDoneEnabled_iff {s : State} : shiftDoneEnabled s = true ↔
    s.clkOk = true ∧ s.en = true ∧ s.shActive = true := by
  simp [shiftDoneEnabled, and_assoc]

theorem shiftLoad_of_enabled {s : State} (h : shiftLoadEnabled s = true) :
    shiftLoad s = { s with shift := s.txbuf, txe := true, shActive := true } := by
  rw [shiftLoad, if_pos h]

/-- With RXNE set the byte received is lost. -/
theorem shiftDone_of_overrun {s : State} (h : shiftDoneEnabled s = true) (hr : s.rxne = true) :
    shiftDone s = { s.exchange .manual s.shift with ovr := true, shActive := false } := by
  simp [shiftDone, h, hr]

theorem shiftDone_of_received {s : State} (h : shiftDoneEnabled s = true) (hr : s.rxne = false) :
    shiftDone s = { s.exchange .manual s.shift with
      rxbuf := s.answer s.shift, rxne := true, shActive := false } := by
  simp [shiftDone, h, hr]

/-- Settles O31: TXE = 0 and EBUSY = 1 exclude each other under the invariant. -/
theorem shiftLoadStep : Obligations.ShiftLoadStep := by
  intro s rest hs
  refine ⟨shiftLoadEnabled_iff, fun h => ?_, fun hinv hb => ?_⟩
  · calc step s = .next (shiftLoad s.beginStep) := step_eq_takeTurn (nextAgent_of_sched hs)
      _ = .next { s.beginStep with shift := s.txbuf, txe := true, shActive := true } :=
        congrArg _ (shiftLoad_of_enabled (s := s.beginStep) h)
      _ = _ := by rw [beginStep_of_sched hs]
  · obtain ⟨htxe, -⟩ := hinv.busyExclusive hb
    simp [shiftLoadEnabled, htxe]

/-- Settles O32: the step is SHIFT_DONE's turn, by whether RXBUF is free. -/
theorem shiftDoneStep : Obligations.ShiftDoneStep := by
  intro s b rest hs hb
  have hstep : step s = .next (shiftDone s.beginStep) := step_eq_takeTurn (nextAgent_of_sched hs)
  have hexch : b = { s.beginStep.exchange .manual s.shift with shActive := false } := by
    rw [beginStep_of_sched hs, hb]
    rfl
  subst hexch
  exact ⟨shiftDoneEnabled_iff,
    fun h hr => hstep.trans (congrArg _ (shiftDone_of_overrun (s := s.beginStep) h hr)),
    fun h hr => hstep.trans (congrArg _ (shiftDone_of_received (s := s.beginStep) h hr))⟩

/-! ### A manual exchange (R90) -/

/-- SHIFT_LOAD and SHIFT_DONE of a byte waiting in TXBUF exchange it and leave the answer in RXBUF. -/
theorem shiftDone_shiftLoad {s : State} (hc : s.clkOk = true) (hen : s.en = true)
    (ht : s.txe = false) (ha : s.shActive = false) (hr : s.rxne = false) :
    shiftDone (shiftLoad s) = { s.exchange .manual s.txbuf with
      shift := s.txbuf, txe := true, shActive := false,
      rxbuf := s.answer s.txbuf, rxne := true } := by
  rw [shiftLoad_of_enabled (shiftLoadEnabled_iff.2 ⟨hc, hen, ht, ha⟩)]
  exact shiftDone_of_received (shiftDoneEnabled_iff.2 ⟨hc, hen, rfl⟩) hr

/-- Settles O36: the accepted byte waits in TXBUF, the shifter exchanges it, and the DR read returns
the answer and clears RXNE. -/
theorem manualExchange : Obligations.ManualExchange := by
  intro s v hc hen hb ht ha hr
  obtain ⟨w, hw⟩ : ∃ w : State, w =
      { s.record (.hw 0x08 v) with txbuf := v.setWidth 8, txe := false } := ⟨_, rfl⟩
  have hwrite : exec (.wrDr v) s = .next w :=
    hw ▸ (exec_write_of_clock hc .dr v).trans (congrArg _ (writeDr_of_accepted v hen hb ht))
  have hshift := shiftDone_shiftLoad (s := w) (hw ▸ hc) (hw ▸ hen) (hw ▸ rfl) (hw ▸ ha) (hw ▸ hr)
  refine ⟨w, _, w.answer w.txbuf, hwrite, exec_rdDr_of_clock (hshift ▸ hw ▸ hc), ?_⟩
  rw [hshift]
  subst hw
  have hassoc (a b c : Event) : s.history ++ [a] ++ [b] ++ [c] = s.history ++ [a, b, c] := by simp
  exact ⟨hassoc _ _ _, rfl, rfl, rfl, bsy_eq_false_iff.2 ⟨rfl, rfl, hb⟩, hen, rfl, rfl⟩

/-! ### The bit level (R88, log 13) -/

/-- The two edges of SCK cycle `i`. -/
def cycleEdges (t r : Byte) (i : Nat) : List WireEdge :=
  [.fall (t.getLsbD (7 - i)), .rise (r.getLsbD (7 - i))]

theorem wireEdges_eq (t r : Byte) : wireEdges t r = (List.range 8).flatMap (cycleEdges t r) := rfl

/-- One cycle shifts a bit of each byte in and leaves SCK high. -/
theorem foldl_cycleEdges (t r : Byte) (i : Nat) (w : WireState) :
    (cycleEdges t r i).foldl wireStep w =
      { sck := true
        mosi := t.getLsbD (7 - i)
        received := shiftIn w.received (r.getLsbD (7 - i))
        slaveReceived := shiftIn w.slaveReceived (t.getLsbD (7 - i)) } := rfl

theorem getLsbD_shiftIn (reg : Byte) (b : Bool) {k : Nat} (hk : k < 8) :
    (shiftIn reg b).getLsbD k = if k = 0 then b else reg.getLsbD (k - 1) := by
  cases k with
  | zero => simp [shiftIn]
  | succ j => simp [shiftIn, hk, Nat.lt_of_succ_lt hk]

/-- A shift register that has taken in the `n` high bits of `b` takes in the next one. -/
theorem shiftIn_high_bits (reg b : Byte) {n : Nat} (hn : n < 8) :
    shiftIn (reg <<< n ||| b >>> (8 - n)) (b.getLsbD (7 - n)) =
      reg <<< (n + 1) ||| b >>> (8 - (n + 1)) := by
  apply BitVec.eq_of_getLsbD_eq
  intro k hk
  rw [getLsbD_shiftIn _ _ hk]
  cases k with
  | zero => simp
  | succ j =>
    have hj : 7 - n + (j + 1) = 8 - n + j := by omega
    simp [hj, hk, Nat.lt_of_succ_lt hk]

/-- After `n` cycles each shift register has taken in the `n` high bits of the byte sent to it. -/
theorem foldl_cycles (t r : Byte) (w : WireState) {n : Nat} (hn : n ≤ 8) :
    (((List.range n).flatMap (cycleEdges t r)).foldl wireStep w).received =
      w.received <<< n ||| r >>> (8 - n) ∧
    (((List.range n).flatMap (cycleEdges t r)).foldl wireStep w).slaveReceived =
      w.slaveReceived <<< n ||| t >>> (8 - n) := by
  induction n with
  | zero => simp [BitVec.ushiftRight_eq_zero]
  | succ n ih =>
    obtain ⟨hrecv, hslave⟩ := ih (Nat.le_of_succ_le hn)
    rw [List.range_succ, List.flatMap_append, List.foldl_append, List.flatMap_singleton,
      foldl_cycleEdges, hrecv, hslave]
    exact ⟨shiftIn_high_bits _ r hn, shiftIn_high_bits _ t hn⟩

/-- Settles O35: after the eight cycles nothing is left of what the shift registers held. -/
theorem wireCarriesBothBytes : Obligations.WireCarriesBothBytes := by
  intro t r w
  obtain ⟨hrecv, hslave⟩ := foldl_cycles t r w (Nat.le_refl 8)
  refine ⟨rfl, hrecv.trans ?_, hslave.trans ?_, rfl, fun i hi => ?_⟩
  · simp [BitVec.shiftLeft_eq_zero]
  · simp [BitVec.shiftLeft_eq_zero]
  · interval_cases i <;> exact ⟨rfl, rfl⟩

end Sys2Proof.Machine
end

section
/-! SUPPORT. What a micro-operation does (41_protocol_engine.md R98 to R101), and the pin events of
a running command under every schedule (R107). -/

namespace Sys2Proof.Machine

/-! ### The micro-operations at the chip-select request they need -/

theorem engCsa_of_released {s : State} (ha : s.csAssert = false) (he : s.engCs = false) :
    engCsa s = { s with
      engCs := true, engIdx := s.engIdx + 1, history := s.history ++ [.cs false] } := by
  simp [engCsa, State.driveCs, State.csN, State.record, State.advance, ha, he]

theorem engCsd_of_held {s : State} (ha : s.csAssert = false) (he : s.engCs = true) :
    engCsd s = { s with
      engCs := false, engIdx := s.engIdx + 1, history := s.history ++ [.cs true] } := by
  simp [engCsd, State.driveCs, State.csN, State.record, State.advance, ha, he]

/-- While the engine requests chip-select it exchanges a byte at `cs_n` = 0. -/
theorem engXs_of_held {s : State} (he : s.engCs = true) (b : Byte) :
    engXs b s = { s with
      misoFeed := s.misoFeed.tail, engIdx := s.engIdx + 1
      history := s.history ++ [.xfer false b (s.answer b) .engine] } := by
  simp [engXs, State.exchange, State.csN, State.advance, he]

/-- XR is XS that keeps the byte received. -/
theorem engXr_eq_setRx (b : Byte) (k : Fin 3) (s : State) :
    engXr b k s = (engXs b s).setRx k (s.answer b) := by
  match k with
  | 0 | 1 | 2 => rfl

/-! ### Traces of programs in parts -/

theorem exchangeCount_append (ops ops' : List MicroOp) :
    exchangeCount (ops ++ ops') = exchangeCount ops + exchangeCount ops' := by
  induction ops with
  | nil => exact (Nat.zero_add _).symm
  | cons op ops ih => cases op <;> simp [exchangeCount, ih, Nat.add_right_comm]

/-- The answers to a program are those to its first part, then those to the rest. -/
theorem traceOf_append {ops : List MicroOp} {rs : List Byte} (h : rs.length = exchangeCount ops)
    (ops' : List MicroOp) (rs' : List Byte) :
    traceOf (ops ++ ops') (rs ++ rs') = traceOf ops rs ++ traceOf ops' rs' := by
  induction ops generalizing rs with
  | nil => rw [List.eq_nil_of_length_eq_zero h]; rfl
  | cons op ops ih =>
    cases op with
    | csa | csd => exact congrArg _ (ih h)
    | fin => exact ih h
    | xs | xr =>
      obtain ⟨r, rs, rfl⟩ := List.exists_cons_of_length_eq_add_one h
      exact congrArg _ (ih (Nat.succ.inj h))

theorem receivedAt_append {ops : List MicroOp} {rs : List Byte} (h : rs.length = exchangeCount ops)
    (k : Fin 3) (b : Byte) (ops' : List MicroOp) (rs' : List Byte) :
    receivedAt k b (ops ++ ops') (rs ++ rs') = receivedAt k (receivedAt k b ops rs) ops' rs' := by
  induction ops generalizing rs b with
  | nil => rw [List.eq_nil_of_length_eq_zero h]; rfl
  | cons op ops ih =>
    cases op with
    | csa | csd | fin => exact ih h b
    | xs | xr =>
      obtain ⟨r, rs, rfl⟩ := List.exists_cons_of_length_eq_add_one h
      exact ih (Nat.succ.inj h) _

/-- A trace holds pin events only. -/
theorem wireHistory_traceOf (ops : List MicroOp) (rs : List Byte) :
    wireHistory (traceOf ops rs) = traceOf ops rs := by
  induction ops generalizing rs with
  | nil => rfl
  | cons op ops ih =>
    cases op with
    | csa | csd | xs | xr => exact congrArg _ (ih _)
    | fin => exact ih rs

theorem wireHistory_append (h es : List Event) :
    wireHistory (h ++ es) = wireHistory h ++ wireHistory es :=
  List.filter_append ..

/-! ### What some micro-operations put on the pins and into ENG_RX -/

/-- From `s` to `t` the history grows by the pin events of `ops`, which the SLAVE answers with `rs`,
and ENG_RX takes in the bytes received. -/
structure Carries (ops : List MicroOp) (rs : List Byte) (s t : State) : Prop where
  length : rs.length = exchangeCount ops
  history : t.history = s.history ++ traceOf ops rs
  engRx0 : t.engRx0 = receivedAt 0 s.engRx0 ops rs
  engRx1 : t.engRx1 = receivedAt 1 s.engRx1 ops rs
  engRx2 : t.engRx2 = receivedAt 2 s.engRx2 ops rs

theorem Carries.refl (s : State) : Carries [] [] s s :=
  ⟨rfl, (List.append_nil _).symm, rfl, rfl, rfl⟩

theorem Carries.trans {ops ops' : List MicroOp} {rs rs' : List Byte} {s t u : State}
    (h : Carries ops rs s t) (h' : Carries ops' rs' t u) :
    Carries (ops ++ ops') (rs ++ rs') s u where
  length := by rw [List.length_append, exchangeCount_append, h.length, h'.length]
  history := by rw [h'.history, h.history, traceOf_append h.length, List.append_assoc]
  engRx0 := by rw [h'.engRx0, h.engRx0, receivedAt_append h.length]
  engRx1 := by rw [h'.engRx1, h.engRx1, receivedAt_append h.length]
  engRx2 := by rw [h'.engRx2, h.engRx2, receivedAt_append h.length]

/-- An operation that finds the chip-select request it needs puts its own events on the pins. -/
theorem runOp_carries {commit : State → State} (hf : CommitFrame commit) {s : State} {op : MicroOp}
    (ha : s.csAssert = false) (hn : s.engCs = op.needsCs) :
    ∃ rs, Carries [op] rs s (runOp commit s op) := by
  cases op with
  | csa =>
    rw [runOp, engCsa_of_released ha hn]
    exact ⟨[], rfl, rfl, rfl, rfl, rfl⟩
  | csd =>
    rw [runOp, engCsd_of_held ha hn]
    exact ⟨[], rfl, rfl, rfl, rfl, rfl⟩
  | xs b =>
    rw [runOp, engXs_of_held hn]
    exact ⟨[s.answer b], rfl, rfl, rfl, rfl, rfl⟩
  | xr b k =>
    rw [runOp, engXr_eq_setRx, engXs_of_held hn]
    exact ⟨[s.answer b], rfl, setRx_history .., setRx_engRx0 .., setRx_engRx1 .., setRx_engRx2 ..⟩
  | fin =>
    rw [runOp_fin hf]
    exact ⟨[], rfl, (List.append_nil _).symm, rfl, rfl, rfl⟩

/-! ### The running command's pin events over every turn -/

/-- What `CommandOnWire` reads of a state. -/
def State.commandPart (s : State) : Bool × List MicroOp × Nat × Byte × Byte × Byte × List Event :=
  (s.ebusy, s.engOps, s.engIdx, s.engRx0, s.engRx1, s.engRx2, wireHistory s.history)

theorem CommandOnWire.of_part_eq {s t : State} (h : CommandOnWire s)
    (ht : t.commandPart = s.commandPart) : CommandOnWire t := by
  simp only [State.commandPart, Prod.mk.injEq] at ht
  obtain ⟨hb, hops, hidx, h0, h1, h2, hh⟩ := ht
  unfold CommandOnWire
  rwa [hb, hops, hidx, h0, h1, h2, hh]

/-- No command is running. -/
theorem commandOnWire_of_idle {s : State} (h : s.ebusy = false) : CommandOnWire s :=
  fun hb => absurd hb (ne_true_of_eq_false h)

/-- A host access's event is not on the pins. -/
theorem CommandOnWire.record {s : State} (h : CommandOnWire s) {e : Event}
    (he : Event.onWire e = false) : CommandOnWire (s.record e) := by
  refine h.of_part_eq ?_
  have hh : wireHistory (s.history ++ [e]) = wireHistory s.history := by
    rw [wireHistory_append, wireHistory, wireHistory, List.filter_cons_of_neg (by simp [he])]
    exact List.append_nil _
  simp [State.commandPart, hh]

/-- An accepted command has put nothing on the pins and received nothing. -/
theorem commandOnWire_startCommand (v : Word) (s : State) : CommandOnWire (s.startCommand v) :=
  fun _ => ⟨wireHistory s.history, [], rfl, (List.append_nil _).symm, rfl, rfl, rfl⟩

/-- HOST moves chip-select only while no command runs, and starts a command only then. -/
theorem CommandOnWire.writeEffect {s : State} (h : CommandOnWire s) (v : Word) (r : Reg) :
    CommandOnWire (writeEffect v r s) := by
  cases r with
  | ctrl => exact h.of_part_eq (by rw [Machine.writeEffect, writeCtrl_frame]; rfl)
  | dr => exact h.of_part_eq (by rw [Machine.writeEffect, writeDr_frame]; rfl)
  | status | rdata | press => exact h.of_part_eq rfl
  | csctl =>
    rw [Machine.writeEffect]
    rcases writeCsctl_cases v s with hw | hw | ⟨hb, hw⟩ <;> rw [hw]
    · exact h
    · exact h.of_part_eq rfl
    · obtain ⟨-, -, hidle⟩ := bsy_eq_false_iff.1 hb
      exact commandOnWire_of_idle ((driveCs_ebusy _ _ s).trans hidle)
  | cmd =>
    rw [Machine.writeEffect]
    rcases writeCmd_cases v s with hw | hw | hw | ⟨-, -, -, -, -, -, hw⟩ <;> rw [hw]
    · exact h.of_part_eq rfl
    · exact h.of_part_eq rfl
    · exact h.of_part_eq rfl
    · exact commandOnWire_startCommand v s

theorem CommandOnWire.hostTurn {s t : State} (h : CommandOnWire s) (ht : hostTurn s = .next t) :
    CommandOnWire t := by
  rcases hostTurn_event_cases ht with rfl | ⟨r, v, rest, rest', rfl | rfl⟩
  · exact h
  · exact (h.record (e := .hr r.off v) rfl).of_part_eq rfl
  · have hrec := (h.record (e := .hw r.off v) rfl).of_part_eq
      (t := ({ s with host := rest } : State).record (.hw r.off v)) rfl
    exact (hrec.writeEffect v r).of_part_eq rfl

/-- The shifter exchanges a byte only while no command runs. -/
theorem CommandOnWire.shiftDone {s : State} (h : CommandOnWire s) (hi : Invariant s) :
    CommandOnWire (shiftDone s) := by
  cases hon : shiftDoneEnabled s with
  | false => rwa [shiftDone_of_not_enabled hon]
  | true =>
    have hidle : s.ebusy = false := by
      by_contra hb
      obtain ⟨-, hsh, -⟩ := hi.busyExclusive (by simpa using hb)
      simp [shiftDoneEnabled, hsh] at hon
    exact commandOnWire_of_idle ((congrArg State.ebusy (shiftDone_frame s)).trans hidle)

/-- The running command goes on by the operation it stands at. -/
theorem CommandOnWire.of_carries {s t : State} {op : MicroOp} {rs : List Byte}
    (h : CommandOnWire s) (hb : s.ebusy = true) (hop : s.currentOp = some op)
    (hops : t.engOps = s.engOps) (hidx : t.engIdx = s.engIdx + 1) (hc : Carries [op] rs s t) :
    CommandOnWire t := by
  intro _
  obtain ⟨before, rs₀, hlen, hh, h0, h1, h2⟩ := h hb
  have htake : t.engOps.take t.engIdx = s.engOps.take s.engIdx ++ [op] := by
    rw [hops, hidx, List.take_add_one, show s.engOps[s.engIdx]? = some op from hop]
    rfl
  rw [htake]
  refine ⟨before, rs₀ ++ rs, ?_, ?_, ?_, ?_, ?_⟩
  · rw [List.length_append, exchangeCount_append, hlen, hc.length]
  · rw [hc.history, wireHistory_append, hh, wireHistory_traceOf, traceOf_append hlen,
      List.append_assoc]
  · rw [hc.engRx0, h0, receivedAt_append hlen]
  · rw [hc.engRx1, h1, receivedAt_append hlen]
  · rw [hc.engRx2, h2, receivedAt_append hlen]

theorem CommandOnWire.engineTurn {s t : State} (h : CommandOnWire s) (hi : Invariant s)
    (ht : engineTurn s = .next t) : CommandOnWire t := by
  rcases engineTurn_eq_next_runOp ht with rfl | ⟨i, op, -, hb, hop, rfl⟩
  · exact h
  · have hf := commitOf_frame i
    by_cases hfin : op = .fin
    · subst hfin
      exact commandOnWire_of_idle (congrArg State.ebusy (runOp_fin hf s))
    · obtain ⟨-, -, -, -, -, hops, hidx⟩ := runOp_before_fin (commit := commitOf i) s hfin
      obtain ⟨-, -, ha, -⟩ := hi.busyExclusive hb
      obtain ⟨rs, hc⟩ := runOp_carries hf ha (engCs_of_inv hi hb hop)
      exact h.of_carries hb hop hops hidx hc

/-- Settles O56: HOST and the shifter leave the pins alone while a command runs, and each
micro-operation adds its own events. -/
theorem stepKeepsCommandOnWire : Obligations.StepKeepsCommandOnWire := by
  intro s t hi hs ht
  have hib : Invariant s.beginStep := hi.of_part_eq rfl
  have hb : CommandOnWire s.beginStep := hs.of_part_eq rfl
  rcases step_cases ht with ⟨-, ht⟩ | ⟨-, rfl⟩ | ⟨-, rfl⟩ | ⟨-, ht⟩ | ⟨-, -, rfl⟩
  · exact hb.hostTurn ht
  · exact hb.of_part_eq (by rw [shiftLoad_frame]; rfl)
  · exact hb.shiftDone hib
  · exact hb.engineTurn hib ht
  · exact commandOnWire_of_idle rfl

end Sys2Proof.Machine
end

section
/-! SUPPORT. The accesses to CMD, RDATA and PRESS (41_protocol_engine.md R91, R102 to R106). -/

namespace Sys2Proof.Machine

section
variable {v : Word} {s : State}

theorem writeCmd_of_ebusy (hb : s.ebusy = true) : writeCmd v s = s.setErrBusy := by
  rw [writeCmd, if_pos hb]

theorem writeCmd_of_disabled (hb : s.ebusy = false) (hl : legal v = true) (hen : s.en = false) :
    writeCmd v s = s.setErrCfg := by
  simp [writeCmd, hb, hl, hen]

/-- A manual byte in progress or a manual select refuses the command. -/
theorem writeCmd_of_manual (hb : s.ebusy = false) (hl : legal v = true) (hen : s.en = true)
    (hm : s.txe = false ∨ s.shActive = true ∨ s.csAssert = true) :
    writeCmd v s = s.setErrBusy := by
  rcases hm with hm | hm | hm <;> simp [writeCmd, hb, hl, hen, hm]

theorem writeCmd_of_accepted (hb : s.ebusy = false) (hl : legal v = true) (hen : s.en = true)
    (ht : s.txe = true) (hsh : s.shActive = false) (ha : s.csAssert = false) :
    writeCmd v s = s.startCommand v := by
  simp [writeCmd, hb, hl, hen, ht, hsh, ha]

end

/-- Settles O25: each check of R91 is the write's effect on the state that holds its HW event. -/
theorem writeCmd_holds : Obligations.WriteCmd := by
  rintro s h v hc rfl
  have hexec := exec_write_of_clock hc .cmd v
  exact ⟨decodeBus_off true .cmd v,
    fun hb => hexec.trans (congrArg _ (writeCmd_of_ebusy hb)),
    fun hb hl => hexec.trans (congrArg _ (writeCmd_of_illegal hb hl)),
    fun hb hl hen => hexec.trans (congrArg _ (writeCmd_of_disabled hb hl hen)),
    fun hb hl hen hm => hexec.trans (congrArg _ (writeCmd_of_manual hb hl hen hm)),
    fun hb hl hen ht hsh ha => hexec.trans (congrArg _ (writeCmd_of_accepted hb hl hen ht hsh ha))⟩

/-- A register write leaves CMD, or is the acceptance of a command. -/
theorem writeEffect_cmd (v : Word) (r : Reg) (s : State) :
    (writeEffect v r s).cmd = s.cmd ∨
      (s.ebusy = false ∧ legal v = true ∧ writeEffect v r s = s.startCommand v) := by
  cases r with
  | ctrl => rw [writeEffect, writeCtrl_frame]; exact .inl rfl
  | dr => rw [writeEffect, writeDr_frame]; exact .inl rfl
  | csctl => rw [writeEffect, writeCsctl_frame]; exact .inl rfl
  | status | rdata | press => exact .inl rfl
  | cmd =>
    rw [writeEffect]
    rcases writeCmd_cases v s with hw | hw | hw | ⟨hb, hl, -, -, -, -, hw⟩ <;> rw [hw]
    · exact .inl rfl
    · exact .inl rfl
    · exact .inl rfl
    · exact .inr ⟨hb, hl, rfl⟩

theorem hostTurn_cmd {s t : State} (h : hostTurn s = .next t) :
    t.cmd = s.cmd ∨ (legal t.cmd = true ∧ t.engCmd = t.cmd ∧ t.engOps = expand t.cmd ∧
      s.ebusy = false ∧ t.ebusy = true) := by
  rcases hostTurn_event_cases h with rfl | ⟨r, v, rest, rest', rfl | rfl⟩
  · exact .inl rfl
  · exact .inl rfl
  · rcases writeEffect_cmd v r (({ s with host := rest } : State).record (.hw r.off v)) with
      hw | ⟨hb, hl, hw⟩
    · exact .inl hw
    · rw [hw]
      exact .inr ⟨hl, rfl, rfl, hb, rfl⟩

theorem engineTurn_cmd {s t : State} (h : engineTurn s = .next t) : t.cmd = s.cmd := by
  rcases engineTurn_eq_next_runOp h with rfl | ⟨i, op, -, -, -, rfl⟩
  · rfl
  · rw [runOp_frame (commitOf_frame i)]

/-- Settles O26: only HOST's turn changes CMD, by the acceptance of a command. -/
theorem readCmd : Obligations.ReadCmd := by
  refine ⟨fun s v hc => ⟨decodeBus_off false .cmd v, exec_read_of_clock (r := .cmd) hc (by decide)⟩,
    rfl, fun s t h hn hne => ?_⟩
  rcases step_cases h with ⟨hg, h⟩ | ⟨-, rfl⟩ | ⟨-, rfl⟩ | ⟨-, h⟩ | ⟨hg, -⟩
  · exact ⟨hg, (hostTurn_cmd (s := s.beginStep) h).resolve_left hne⟩
  · exact absurd (congrArg State.cmd (shiftLoad_frame s.beginStep)) hne
  · exact absurd (congrArg State.cmd (shiftDone_frame s.beginStep)) hne
  · exact absurd (engineTurn_cmd (s := s.beginStep) h) hne
  · exact absurd hg hn

/-- Settles O27: each read returns its register in its HR event. -/
theorem readResults : Obligations.ReadResults := fun _ v hc =>
  ⟨decodeBus_off false .rdata v, decodeBus_off false .press v,
    exec_read_of_clock (r := .rdata) hc (by decide),
    exec_read_of_clock (r := .press) hc (by decide)⟩

/-- Settles O28: a write of either register has no effect after its HW event. -/
theorem writeResultsIgnored : Obligations.WriteResultsIgnored := fun _ v hc =>
  ⟨decodeBus_off true .rdata v, decodeBus_off true .press v,
    exec_write_of_clock hc .rdata v, exec_write_of_clock hc .press v⟩

end Sys2Proof.Machine
end

section
/-! SUPPORT. The five commands as instructions: their micro-programs (41_protocol_engine.md R92 to
R97), one micro-operation of a running command (R98 to R100, R107) and the results at FIN (R101). -/

namespace Sys2Proof.Machine

/-! ### Micro-programs -/

/-- The byte counts of READN. -/
theorem count_cases {n : BitVec 2} (h : n ≠ 0) : n = 1 ∨ n = 2 ∨ n = 3 := by
  revert n
  decide

/-- Settles O37: each word expands to its command's program. -/
theorem microPrograms : Obligations.MicroPrograms := by
  intro a n d
  refine ⟨expand_read1Word a, ?_, ?_, ?_, expand_writeWord a d, expand_initWord d, expand_readpWord⟩
  all_goals
    rintro rfl
    exact expand_readnWord a (by decide)

/-! ### One micro-operation -/

section
variable {i : Instr} {w : Word} {s : State} (hw : encode i = .cmd w) (hc : s.clkOk = true)
  (hb : s.ebusy = true) (he : s.engCmd = w)
include hw hc hb he

/-- A running command's instruction takes the operation the engine stands at. -/
theorem exec_running {op : MicroOp} (hi : Invariant s) (hop : s.currentOp = some op) :
    exec i s = .next (runOp (commitOf i) s op) := by
  have hen : opEnabled s.en op = true := by
    rw [en_of_inv hi hb]
    cases op <;> rfl
  exact exec_currentOp (exec_eq_engineStep_commitOf hw) hc hb he hop hen

/-- At FIN a running command's instruction commits its results and leaves the engine idle. -/
theorem exec_fin (hop : s.currentOp = some .fin) :
    exec i s = .next { s with
      rdata := (commitOf i s).rdata, press := (commitOf i s).press, idok := (commitOf i s).idok
      ebusy := false, done := true, engOps := [], engIdx := 0 } := by
  rw [exec_currentOp (exec_eq_engineStep_commitOf hw) hc hb he hop rfl,
    runOp_fin (commitOf_frame i)]

end

/-- Settles O38: a running command at CSA holds no request yet. -/
theorem engineAssertsChipSelect : Obligations.EngineAssertsChipSelect := by
  intro i w s _ hw hi hc hb he hop
  obtain ⟨-, -, ha, -⟩ := hi.busyExclusive hb
  have hcs : s.engCs = false := engCs_of_inv hi hb hop
  have hexec := exec_running hw hc hb he hi hop
  rw [runOp, engCsa_of_released ha hcs] at hexec
  exact ⟨by rw [State.csN, ha, hcs]; rfl, hexec, by simp [State.csN]⟩

/-- Settles O39: a running command at XS or XR holds its request. -/
theorem engineExchangesByte : Obligations.EngineExchangesByte := by
  intro i w s _ hw hi hc hb he b
  have hxs (hop : s.currentOp = some (.xs b)) := exec_running hw hc hb he hi hop
  have hxr {k : Fin 3} (hop : s.currentOp = some (.xr b k)) : exec i s = .next (State.setRx k
      (s.answer b) { s with
        misoFeed := s.misoFeed.tail, engIdx := s.engIdx + 1
        history := s.history ++ [.xfer false b (s.answer b) .engine] }) := by
    rw [exec_running hw hc hb he hi hop, runOp, engXr_eq_setRx,
      engXs_of_held (engCs_of_inv hi hb hop)]
  refine ⟨fun hop => ?_, hxr, hxr, hxr⟩
  rw [hxs hop, runOp, engXs_of_held (engCs_of_inv hi hb hop)]

/-- Settles O40: a running command at CSD holds its request, and HOST holds none. -/
theorem engineDeassertsChipSelect : Obligations.EngineDeassertsChipSelect := by
  intro i w s _ hw hi hc hb he hop
  obtain ⟨-, -, ha, -⟩ := hi.busyExclusive hb
  have hexec := exec_running hw hc hb he hi hop
  rw [runOp, engCsd_of_held ha (engCs_of_inv hi hb hop)] at hexec
  exact ⟨hexec, by rw [State.csN, ha]; rfl⟩

/-- Settles O46: a command takes a micro-operation or changes nothing. -/
theorem engineLeavesManualPath : Obligations.EngineLeavesManualPath := by
  intro i w s t hw h
  rcases exec_command_next hw h with rfl | ⟨commit, op, hf, -, -, -, -, hop, -, rfl⟩
  · simp
  · rw [runOp_frame hf]
    refine ⟨rfl, rfl, rfl, rfl, rfl, rfl, rfl, rfl, rfl, rfl, rfl, rfl, rfl, rfl, rfl,
      fun hne => ?_⟩
    have hfin : op ≠ .fin := fun ho => hne (ho ▸ hop)
    obtain ⟨hrdata, hpress, hidok, hdone, hbusy, hops, -⟩ :=
      runOp_before_fin (commit := commit) s hfin
    exact ⟨hrdata, hpress, hidok, hdone, hbusy, hops⟩

/-! ### Results at FIN -/

/-- Settles O41: READ1's result is the first byte received. -/
theorem read1Command : Obligations.Read1Command :=
  ⟨fun a _ => ⟨decodeCmd_read1Word a, expand_read1Word a,
    fun hc hb he hop => exec_fin (i := .read1 a) rfl hc hb he hop⟩, expand_read1Word 0x0F⟩

/-- Settles O43: WRITE commits no result. -/
theorem writeCommand : Obligations.WriteCommand := by
  refine ⟨?_, expand_writeWord 0x20 0x90⟩
  rintro a d s w rfl
  exact ⟨decodeCmd_writeWord a d, expand_writeWord a d,
    fun hc hb he hop => exec_fin (i := .write a d) rfl hc hb he hop⟩

/-- Settles O45: READP's results are the assembled sample and its conversion. -/
theorem readpCommand : Obligations.ReadpCommand := by
  rintro s raw rfl
  exact ⟨decodeCmd_readpWord, expand_readpWord,
    fun hc hb he hop => exec_fin (i := .readp) rfl hc hb he hop,
    convert_toNat_le (assemble_toNat_lt _ _ _)⟩

/-- A byte of ENG_RX that some operations receive nothing into is unchanged by them. -/
theorem receivedAt_of_not_mem {k : Fin 3} {ops : List MicroOp} (h : ∀ t, .xr t k ∉ ops) (b : Byte)
    (rs : List Byte) : receivedAt k b ops rs = b := by
  induction ops generalizing rs with
  | nil => rfl
  | cons op ops ih =>
    have hrest : ∀ t, .xr t k ∉ ops := fun t hm => h t (List.mem_cons_of_mem _ hm)
    cases op with
    | csa | csd | fin => exact ih hrest rs
    | xs => exact ih hrest rs.tail
    | xr t j =>
      have hj : j ≠ k := fun hj => h t (hj ▸ List.mem_cons_self)
      rw [receivedAt, if_neg hj]
      exact ih hrest rs.tail

/-- READN receives into the first CNT bytes of ENG_RX only. -/
theorem xr_not_mem_readnProgram (a : SensorAddr) {n : BitVec 2} {k : Fin 3} (h : n.toNat ≤ k.val)
    (t : Byte) : .xr t k ∉ readnProgram a n := by
  intro hm
  have hrecv : .xr t k ∈ receiveOps.take n.toNat := by simpa [readnProgram] using hm
  obtain ⟨j, hj, hjk⟩ := List.mem_take_iff_getElem.1 hrecv
  obtain ⟨hjn, hj3⟩ := Nat.lt_min.1 hj
  have hkj : k.val = j := by
    have hlen : j < 3 := hj3
    interval_cases j <;> cases hjk <;> rfl
  omega

/-- Where no operation of the running command's program receives into a byte of ENG_RX, it still
holds the 0x00 of acceptance. -/
theorem receivedAt_take_engOps {s : State} {p : List MicroOp} (hi : Invariant s)
    (hb : s.ebusy = true) (hp : expand s.engCmd = p) {k : Fin 3} (hk : ∀ t, .xr t k ∉ p)
    (rs : List Byte) : receivedAt k 0 (s.engOps.take s.engIdx) rs = 0 := by
  obtain ⟨-, -, hops, -, -⟩ := hi.running hb
  rw [hops, hp]
  exact receivedAt_of_not_mem (fun t hm => hk t (List.mem_of_mem_take hm)) 0 rs

/-- Settles O42: the result is ENG_RX, whose bytes beyond CNT the program does not touch. -/
theorem readnCommand : Obligations.ReadnCommand := by
  refine ⟨?_, expand_readnWord 0x28 (n := 2) (by decide)⟩
  rintro a n s w rfl
  refine ⟨fun hn => ?_, fun hn => ⟨decodeCmd_readnWord a hn, expand_readnWord a hn,
    fun hc hb he hop => exec_fin (i := .readn a n) rfl hc hb he hop, fun hi hs hb he _ => ?_⟩⟩
  · subst hn
    exact legal_readnWord a 0
  · obtain ⟨-, rs, -, -, -, h1, h2⟩ := hs hb
    have hrx {k : Fin 3} (hk : n.toNat ≤ k.val) :=
      receivedAt_take_engOps hi hb (he ▸ expand_readnWord a hn) (xr_not_mem_readnProgram a hk) rs
    exact ⟨fun h => h1.trans (hrx (Nat.le_of_lt_succ h)),
      fun h => h2.trans (hrx (Nat.le_of_lt_succ h))⟩

/-- At FIN the engine has run its program but for FIN. -/
theorem take_engOps_at_fin {s : State} (hi : Invariant s) (hb : s.ebusy = true)
    (hop : s.currentOp = some .fin) :
    s.engOps.take s.engIdx = (expand s.engCmd).dropLast := by
  obtain ⟨-, -, hops, -, -⟩ := hi.running hb
  rw [hops, List.dropLast_eq_take, ← engIdx_at_fin hi hb hop, Nat.add_sub_cancel]

/-- Settles O44: at FIN the pin events since acceptance are those of both transactions. -/
theorem initCommand : Obligations.InitCommand := by
  rintro d s w rfl
  refine ⟨decodeCmd_initWord d, expand_initWord d,
    fun hc hb he hop => exec_fin (i := .init d) rfl hc hb he hop, fun hi hs hb he hop => ?_⟩
  have hp : expand s.engCmd = initProgram d := he ▸ expand_initWord d
  have htake := take_engOps_at_fin hi hb hop
  obtain ⟨before, rs, hlen, hh, h0, -, -⟩ := hs hb
  rw [htake, hp] at hlen hh h0
  match rs, hlen with
  | [f, b, g, h], _ => exact ⟨before, f, b, g, h, hh, h0⟩

end Sys2Proof.Machine
end

section
/-! SUPPORT. Whole commands under the default schedule (log 1), from acceptance to FIN
(41_protocol_engine.md R93 to R97). -/

namespace Sys2Proof.Machine

/-! ### The run of a command -/

section
variable {w : Word} {i : Instr} {commit : State → State} (hd : decodeCmd w = .ok i)
  (hx : ∀ u, exec i u = engineStep w commit u)
include hd hx

/-- An operation before FIN goes on the pins and leaves the results. -/
theorem Running.step_before_fin {s : State} {k : Nat} {op : MicroOp}
    (h : Running s w k op.needsCs) (ho : (expand w)[k]? = some op) (hne : op ≠ .fin) :
    ∃ t rs, step s = .next t ∧ Running t w (k + 1) op.leavesCs ∧ SameResults s t ∧
      Carries [op] rs s t := by
  cases op with
  | csa =>
    obtain ⟨t, ht, hrun, hres, ⟨h0, h1, h2⟩, hh⟩ := h.step_csa hd hx ho
    exact ⟨t, [], ht, hrun, hres, rfl, hh, h0, h1, h2⟩
  | xs b =>
    obtain ⟨t, r, ht, hrun, hres, ⟨h0, h1, h2⟩, hh⟩ := h.step_xs hd hx ho
    exact ⟨t, [r], ht, hrun, hres, rfl, hh, h0, h1, h2⟩
  | xr b j =>
    obtain ⟨t, r, ht, hrun, hres, h0, h1, h2, hh⟩ := h.step_xr hd hx ho
    exact ⟨t, [r], ht, hrun, hres, rfl, hh, h0, h1, h2⟩
  | csd =>
    obtain ⟨t, ht, hrun, hres, ⟨h0, h1, h2⟩, hh⟩ := h.step_csd hd hx ho
    exact ⟨t, [], ht, hrun, hres, rfl, hh, h0, h1, h2⟩
  | fin => exact absurd rfl hne

/-- The coming operations `ops`, none of them FIN, take one step each. -/
theorem Running.run_ops {s : State} {k : Nat} {ops rest : List MicroOp}
    (h : Running s w k (csAfter ((expand w).take k))) (hops : (expand w).drop k = ops ++ rest)
    (hfin : .fin ∉ ops) :
    ∃ t rs, (∀ n, Host.Core.run Sys2Proof.core (ops.length + n) s =
        Host.Core.run Sys2Proof.core n t) ∧
      Running t w (k + ops.length) (csAfter ((expand w).take (k + ops.length))) ∧
      SameResults s t ∧ Carries ops rs s t := by
  induction ops generalizing s k with
  | nil => exact ⟨s, [], fun n => by rw [List.length_nil, Nat.zero_add], h, ⟨rfl, rfl, rfl, rfl⟩,
      Carries.refl s⟩
  | cons op ops ih =>
    obtain ⟨hne, hfin⟩ := not_or.1 (mt List.mem_cons.2 hfin)
    have ho : (expand w)[k]? = some op := by
      rw [← Nat.add_zero k, ← List.getElem?_drop, hops]
      rfl
    have hdrop : (expand w).drop (k + 1) = ops ++ rest := by
      rw [← List.tail_drop, hops]
      rfl
    rw [csAfter_take_expand ho] at h
    obtain ⟨t, rs, ht, hrun, hres, hcar⟩ := h.step_before_fin hd hx ho (Ne.symm hne)
    rw [← csAfter_take_succ_expand ho] at hrun
    obtain ⟨u, rs', hu, hrun', hres', hcar'⟩ := ih hrun hdrop hfin
    have hk : k + (op :: ops).length = k + 1 + ops.length := by
      rw [List.length_cons, Nat.add_assoc, Nat.add_comm 1]
    refine ⟨u, rs ++ rs', fun n => ?_, hk ▸ hrun', hres.trans hres', hcar.trans hcar'⟩
    rw [List.length_cons, Nat.add_right_comm, run_succ ht, hu]

end

/-- `t` is the state after the FIN of command `i` in `u`. -/
structure Finished (i : Instr) (u t : State) : Prop where
  rdata : t.rdata = (commitOf i u).rdata
  press : t.press = (commitOf i u).press
  idok : t.idok = (commitOf i u).idok
  ebusy : t.ebusy = false
  done : t.done = true
  csN : t.csN = true
  host : t.host = u.host
  history : t.history = u.history

/-- An accepted command that runs through puts its program's events on the pins, then FIN commits
its results. -/
theorem run_command {s : State} {i : Instr} (hi : Invariant s) (hc : s.clkOk = true)
    (hs : s.sched = []) (hb : s.ebusy = true) (h0 : s.engIdx = 0)
    (hd : decodeCmd s.engCmd = .ok i) :
    ∃ rs u t, Host.Core.run Sys2Proof.core ((Program.ofInstr i).dropLast.length + 1) s = .next t ∧
      SameResults s u ∧ Carries (Program.ofInstr i).dropLast rs s u ∧ Finished i u t := by
  obtain ⟨hl, -⟩ := decodeCmd_command hd
  obtain ⟨p, hp, hfin⟩ := expand_eq_append_fin hl
  have hx := exec_eq_engineStep_commitOf (encode_of_decodeCmd hd).2
  have hprog : (Program.ofInstr i).dropLast = p := by
    rw [← List.dropLast_concat (l₁ := p) (b := .fin), ← hp, expand, hd]
  have hrun := running_of_invariant hi hc hs hb
  obtain ⟨-, -, hops, -, -⟩ := hi.running hb
  rw [hops, h0] at hrun
  obtain ⟨u, rs, hu, hrun', hres, hcar⟩ := hrun.run_ops hd hx (ops := p) hp hfin
  have ho : (expand s.engCmd)[0 + p.length]? = some .fin := by
    rw [Nat.zero_add, hp, List.getElem?_concat_length]
  rw [csAfter_take_expand ho] at hrun'
  obtain ⟨t, ht, hrdata, hpress, hidok, hbusy, hdone, hcs, -, hhost, hh⟩ :=
    hrun'.step_fin hd hx (commitOf_frame i) ho
  rw [hprog]
  refine ⟨rs, u.beginStep, t, ?_, ⟨hres.rdata, hres.press, hres.idok, hres.host⟩,
    ⟨hcar.length, hcar.history, hcar.engRx0, hcar.engRx1, hcar.engRx2⟩,
    ⟨hrdata, hpress, hidok, hbusy, hdone, hcs, hhost, hh⟩⟩
  rw [hu 1, run_succ ht]
  rfl

/-! ### The numbers in RDATA and PRESS (10_state.md R37, 42_sample_assembly.md R108, R109) -/

/-- A byte placed in a register value loses no bit. -/
theorem byte_shiftLeft_toNat (b : Byte) {k : Nat} (hk : k ≤ 24) :
    (b.setWidth 32 <<< k).toNat = b.toNat <<< k := by
  have hb : b.toNat * 2 ^ k < 2 ^ 8 * 2 ^ 24 :=
    Nat.mul_lt_mul_of_lt_of_le b.isLt (Nat.pow_le_pow_right (by decide) hk) (by decide)
  rw [BitVec.toNat_shiftLeft, BitVec.toNat_setWidth_of_le (by decide), Nat.mod_eq_of_lt]
  rwa [Nat.shiftLeft_eq]

theorem threeBytes_toNat (b0 b1 b2 : Byte) :
    (threeBytes b0 b1 b2).toNat = b2.toNat * 65536 + b1.toNat * 256 + b0.toNat := by
  have h0 := b0.isLt
  have h1 := b1.isLt
  have hlow : b1.toNat <<< 8 + b0.toNat < 2 ^ 16 := by
    rw [Nat.shiftLeft_eq]
    omega
  calc (threeBytes b0 b1 b2).toNat
      = b0.toNat ||| b1.toNat <<< 8 ||| b2.toNat <<< 16 := by
        rw [threeBytes, BitVec.toNat_or, BitVec.toNat_or, byte_shiftLeft_toNat b1 (by decide),
          byte_shiftLeft_toNat b2 (by decide), BitVec.toNat_setWidth_of_le (by decide)]
    _ = b2.toNat <<< 16 + (b1.toNat <<< 8 + b0.toNat) := by
        rw [Nat.or_comm b0.toNat, ← Nat.shiftLeft_add_eq_or_of_lt h0, Nat.or_comm,
          ← Nat.shiftLeft_add_eq_or_of_lt hlow]
    _ = b2.toNat * 65536 + b1.toNat * 256 + b0.toNat := by
        rw [Nat.shiftLeft_eq, Nat.shiftLeft_eq, Nat.add_assoc]

theorem convert_toNat_of_lt {raw : Word} (h : raw.toNat < 16777216) :
    (convert raw).toNat = raw.toNat / 4096 := by
  have hmsb : raw.msb = false := BitVec.msb_eq_false_iff_two_mul_lt.2 (by omega)
  rw [convert, BitVec.sshiftRight_eq_of_msb_false hmsb, BitVec.toNat_ushiftRight,
    Nat.shiftRight_eq_div_pow]

/-! ### The five commands -/

/-- Settles O58: READP's run, its four answers and the sample they assemble to. -/
theorem readpEndToEnd : Obligations.ReadpEndToEnd := by
  intro s hi hc hs hb h0 he
  obtain ⟨rs, u, t, hrun, hres, hcar, hfin⟩ :=
    run_command hi hc hs hb h0 ((congrArg decodeCmd he).trans decodeCmd_readpWord)
  obtain ⟨hlen, hh, hr0, hr1, hr2⟩ := hcar
  match rs, hlen with
  | [f, b0, b1, b2], _ =>
    have hraw : assemble u.engRx0 u.engRx1 u.engRx2 = threeBytes b0 b1 b2 := by
      rw [assemble_eq_threeBytes, hr0, hr1, hr2]
      rfl
    refine ⟨f, b0, b1, b2, t, hrun, hfin.history.trans hh, ?_, ?_, hfin.ebusy, hfin.done, hfin.csN,
      hfin.idok.trans hres.idok, hfin.host.trans hres.host⟩
    · rw [← threeBytes_toNat, ← hraw, hfin.rdata]
      rfl
    · rw [← threeBytes_toNat, ← convert_toNat_of_lt (threeBytes_toNat_lt b0 b1 b2), ← hraw,
        hfin.press]
      rfl

/-- Settles O59: INIT's run, whose second answer is the identification byte. -/
theorem initEndToEnd : Obligations.InitEndToEnd := by
  intro s d hi hc hs hb h0 he
  obtain ⟨rs, u, t, hrun, hres, hcar, hfin⟩ :=
    run_command hi hc hs hb h0 (he ▸ decodeCmd_initWord d)
  obtain ⟨hlen, hh, hr0, -, -⟩ := hcar
  match rs, hlen with
  | [f, b, g, h], _ =>
    have hb0 : u.engRx0 = b := hr0
    refine ⟨f, b, g, h, t, hrun, hfin.history.trans hh, ?_, ?_, hfin.ebusy, hfin.done, hfin.csN,
      hfin.press.trans hres.press, hfin.host.trans hres.host⟩
    · rw [← hb0, hfin.rdata]
      exact BitVec.toNat_setWidth_of_le (by decide)
    · rw [← hb0, hfin.idok]
      exact beq_iff_eq

/-- What a READ1, READN or WRITE leaves besides RDATA. -/
theorem Finished.flags {s u t : State} {i : Instr} (h : Finished i u t) (hres : SameResults s u)
    (hpress : (commitOf i u).press = u.press) (hidok : (commitOf i u).idok = u.idok) :
    t.press = s.press ∧ t.idok = s.idok ∧ t.ebusy = false ∧ t.done = true ∧ t.csN = true :=
  ⟨h.press.trans (hpress.trans hres.press), h.idok.trans (hidok.trans hres.idok), h.ebusy, h.done,
    h.csN⟩

/-- READN's operations before FIN. -/
theorem dropLast_readnProgram (a : SensorAddr) (n : BitVec 2) :
    (readnProgram a n).dropLast =
      [.csa, .xs (incFrame a)] ++ receiveOps.take n.toNat ++ [.csd] := by
  rw [readnProgram, List.dropLast_append_of_ne_nil (List.cons_ne_nil _ _)]
  rfl
theorem length_dropLast_readnProgram (a : SensorAddr) (n : BitVec 2) :
    (readnProgram a n).dropLast.length = n.toNat + 3 := by
  have hn : min n.toNat receiveOps.length = n.toNat := Nat.min_eq_left (Nat.le_of_lt_succ n.isLt)
  rw [dropLast_readnProgram, List.length_append, List.length_append, List.length_take, hn]
  exact congrArg (· + 1) (Nat.add_comm 2 _)

/-- The pin events of READN's program and the bytes it leaves in ENG_RX, by its count. -/
theorem Carries.readn {a : SensorAddr} {n : BitVec 2} (hn : n ≠ 0) {rs : List Byte} {s u : State}
    (h : Carries (readnProgram a n).dropLast rs s u) (h1 : s.engRx1 = 0)
    (h2 : s.engRx2 = 0) :
    ∃ f b1 b2 : Byte,
      u.history = s.history ++ [.cs false, .xfer false (incFrame a) f .engine] ++
        ([u.engRx0, b1, b2].take n.toNat).map
          (fun b => .xfer false Config.dummyByte b .engine) ++ [.cs true] ∧
      u.engRx1 = (if n.toNat < 2 then 0 else b1) ∧ u.engRx2 = (if n.toNat < 3 then 0 else b2) := by
  rw [dropLast_readnProgram] at h
  obtain ⟨hlen, hh, hr0, hr1, hr2⟩ := h
  rw [h1] at hr1
  rw [h2] at hr2
  simp only [List.append_assoc]
  rw [hh, hr0]
  rcases count_cases hn with rfl | rfl | rfl
  · match rs, hlen with
    | [f, b0], _ => exact ⟨f, 0, 0, rfl, hr1, hr2⟩
  · match rs, hlen with
    | [f, b0, b1], _ => exact ⟨f, b1, 0, rfl, hr1, hr2⟩
  · match rs, hlen with
    | [f, b0, b1, b2], _ => exact ⟨f, b1, b2, rfl, hr1, hr2⟩

/-- Settles O60: the three runs, READN's by its count. -/
theorem readAndWriteEndToEnd : Obligations.ReadAndWriteEndToEnd := by
  intro s a n d hi hc hs hb h0 hx0 hx1 hx2
  refine ⟨fun he => ?_, fun hn he => ?_, fun he => ?_⟩
  · obtain ⟨rs, u, t, hrun, hres, hcar, hfin⟩ :=
      run_command hi hc hs hb h0 (he ▸ decodeCmd_read1Word a)
    obtain ⟨hlen, hh, hr0, -, -⟩ := hcar
    match rs, hlen with
    | [f, b], _ =>
      have hb0 : u.engRx0 = b := hr0
      refine ⟨f, b, t, hrun, hfin.history.trans hh, ?_, hfin.flags hres rfl rfl⟩
      rw [← hb0, hfin.rdata]
      exact BitVec.toNat_setWidth_of_le (by decide)
  · obtain ⟨rs, u, t, hrun, hres, hcar, hfin⟩ :=
      run_command hi hc hs hb h0 (he ▸ decodeCmd_readnWord a hn)
    obtain ⟨f, b1, b2, hh, hr1, hr2⟩ := hcar.readn hn hx1 hx2
    have hrdata : t.rdata = threeBytes u.engRx0 u.engRx1 u.engRx2 := hfin.rdata
    rw [show (Program.ofInstr (.readn a n)).dropLast.length = n.toNat + 3 from
      length_dropLast_readnProgram a n] at hrun
    refine ⟨f, u.engRx0, b1, b2, t, hrun, hfin.history.trans hh, ?_, hfin.flags hres rfl rfl⟩
    rw [hrdata, threeBytes_toNat, hr1, hr2, apply_ite BitVec.toNat, apply_ite BitVec.toNat, ite_mul,
      ite_mul]
    rfl
  · obtain ⟨rs, u, t, hrun, hres, hcar, hfin⟩ :=
      run_command hi hc hs hb h0 (he ▸ decodeCmd_writeWord a d)
    obtain ⟨hlen, hh, -, -, -⟩ := hcar
    match rs, hlen with
    | [f, g], _ =>
      exact ⟨f, g, t, hrun, hfin.history.trans hh, hfin.rdata.trans hres.rdata,
        hfin.flags hres rfl rfl⟩

end Sys2Proof.Machine
end

section
/-! SUPPORT. The sample's assembly, its conversion and the identification check
(42_sample_assembly.md R108 to R111). -/

namespace Sys2Proof.Machine

/-! ### Assemble -/

theorem assemble_toNat (low mid high : Byte) :
    (assemble low mid high).toNat = high.toNat * 65536 + mid.toNat * 256 + low.toNat := by
  rw [assemble_eq_threeBytes, threeBytes_toNat]

/-- An assembled value is non-negative as a signed number. -/
theorem assemble_msb (low mid high : Byte) : (assemble low mid high).msb = false := by
  have hlt := assemble_toNat_lt low mid high
  exact BitVec.msb_eq_false_iff_two_mul_lt.2 (by omega)

/-- Settles O8: the sum is the one RDATA's three bytes have, and it leaves the top byte 0. -/
theorem assembleIsUnsignedSum : Obligations.AssembleIsUnsignedSum := fun low mid high =>
  ⟨assemble_toNat low mid high, rfl, Nat.le_of_lt_succ (assemble_toNat_lt low mid high),
    BitVec.toInt_nonneg_of_msb_false (assemble_msb low mid high), by decide⟩

/-! ### Convert -/

/-- Convert moves each bit down by 12 and copies bit 31 into the vacated bits. -/
theorem convert_getLsbD (raw : Word) {k : Nat} (hk : k < 32) :
    (convert raw).getLsbD k = raw.getLsbD (if k < 20 then k + 12 else 31) := by
  rw [convert, BitVec.getLsbD_sshiftRight, decide_eq_false (Nat.not_le.2 hk), Bool.not_false,
    Bool.true_and, Nat.add_comm]
  by_cases h : k < 20
  · rw [if_pos h, if_pos (by omega)]
  · rw [if_neg h, if_neg (by omega), BitVec.msb_eq_getLsbD_last]

theorem convert_toInt (raw : Word) : (convert raw).toInt = raw.toInt / 4096 := by
  rw [convert, BitVec.toInt_sshiftRight, Int.shiftRight_eq_div_pow]
  rfl

theorem convert_of_msb_false {raw : Word} (h : raw.msb = false) : convert raw = raw >>> 12 :=
  BitVec.sshiftRight_eq_of_msb_false h

theorem convert_toNat_of_msb_false {raw : Word} (h : raw.msb = false) :
    (convert raw).toNat = raw.toNat / 4096 := by
  rw [convert_of_msb_false h, BitVec.toNat_ushiftRight, Nat.shiftRight_eq_div_pow]

/-- The pressure has no bit above 11. -/
theorem convert_assemble_getLsbD (low mid high : Byte) {k : Nat} (hk : 12 ≤ k) :
    (convert (assemble low mid high)).getLsbD k = false := by
  have hle := convert_toNat_le (assemble_toNat_lt low mid high)
  have hlt : (convert (assemble low mid high)).toNat < 2 ^ k :=
    (Nat.lt_succ_of_le hle).trans_le (Nat.pow_le_pow_right Nat.zero_lt_two hk)
  exact Nat.testBit_lt_two_pow hlt

/-- Settles O9: bit by bit, as a signed quotient, and as a logical shift where bit 31 is 0. -/
theorem convertDividesBy4096 : Obligations.ConvertDividesBy4096 := by
  intro raw
  refine ⟨fun k => convert_getLsbD raw, convert_toInt raw, fun h => ?_, ?_, by decide⟩
  · have hmsb : raw.msb = false := (BitVec.msb_eq_getLsbD_last raw).trans h
    exact ⟨convert_of_msb_false hmsb, convert_toNat_of_msb_false hmsb⟩
  · rintro low mid high rfl
    exact ⟨convert_of_msb_false (assemble_msb low mid high),
      fun k => convert_assemble_getLsbD low mid high⟩

/-- Settles O10: the pressure is a 12-bit number, so its signed value is its unsigned one. -/
theorem pressureRange : Obligations.PressureRange := by
  intro low mid high
  have hle := convert_toNat_le (assemble_toNat_lt low mid high)
  have hint : (convert (assemble low mid high)).toInt = (convert (assemble low mid high)).toNat :=
    BitVec.toInt_eq_toNat_of_lt (by omega)
  rw [hint, ← assemble_toNat]
  exact ⟨Int.natCast_nonneg _, Int.ofNat_le.2 hle,
    convert_toNat_of_lt (assemble_toNat_lt low mid high), by decide, by decide⟩

/-! ### IdCheck -/

theorem idCheck_eq_true_iff (b : Byte) : idCheck b = true ↔ b.toNat = 189 :=
  beq_iff_eq.trans BitVec.toNat_inj.symm

/-- Settles O11: one byte passes, and INIT's FIN commits the check of the byte it received. -/
theorem idCheckOnlyExpectedId : Obligations.IdCheckOnlyExpectedId :=
  ⟨idCheck_eq_true_iff, by decide, by decide, fun d _ hc hb he hop =>
    ⟨_, exec_fin (i := .init d) rfl hc hb he hop, rfl⟩⟩

end Sys2Proof.Machine
end

section
/-! SUPPORT. The sticky bits over an instruction and over a step of SEQ (60_exceptions.md R114, R118). -/

namespace Sys2Proof.Machine

/-- OVR and the ERR bits that are set in `s` are set in `t`. -/
structure StickyRise (s t : State) : Prop where
  ovr : s.ovr = true → t.ovr = true
  errCmd : s.errCmd = true → t.errCmd = true
  errBusy : s.errBusy = true → t.errBusy = true
  errCfg : s.errCfg = true → t.errCfg = true
  errTxovw : s.errTxovw = true → t.errTxovw = true

/-! ### Register writes -/

theorem stickyRise_refl (s : State) : StickyRise s s := ⟨id, id, id, id, id⟩

theorem stickyRise_setErrCmd (s : State) : StickyRise s s.setErrCmd :=
  ⟨id, fun _ => rfl, id, id, id⟩

theorem stickyRise_setErrBusy (s : State) : StickyRise s s.setErrBusy :=
  ⟨id, id, fun _ => rfl, id, id⟩

theorem stickyRise_setErrCfg (s : State) : StickyRise s s.setErrCfg :=
  ⟨id, id, id, fun _ => rfl, id⟩

theorem stickyRise_setErrTxovw (s : State) : StickyRise s s.setErrTxovw :=
  ⟨id, id, id, id, fun _ => rfl⟩

/-- A write of a register other than STATUS clears neither OVR nor an ERR bit. -/
theorem stickyRise_writeEffect {r : Reg} (hr : r ≠ .status) (v : Word) (s : State) :
    StickyRise s (writeEffect v r s) := by
  cases r with
  | status => exact absurd rfl hr
  | ctrl =>
    rw [writeEffect]
    rcases writeCtrl_cases v s with h | h | h | ⟨h, -⟩ <;> rw [h]
    · exact stickyRise_refl s
    · exact stickyRise_setErrCfg s
    · exact stickyRise_setErrBusy s
    · exact ⟨id, id, id, id, id⟩
  | dr =>
    rw [writeEffect]
    rcases writeDr_cases v s with h | h | h | ⟨-, -, h⟩ <;> rw [h]
    · exact stickyRise_setErrCfg s
    · exact stickyRise_setErrBusy s
    · exact stickyRise_setErrTxovw s
    · exact ⟨id, id, id, id, id⟩
  | csctl =>
    rw [writeEffect]
    rcases writeCsctl_cases v s with h | h | ⟨-, h⟩ <;> rw [h]
    · exact stickyRise_refl s
    · exact stickyRise_setErrBusy s
    · rw [driveCs_frame]
      exact ⟨id, id, id, id, id⟩
  | cmd =>
    rw [writeEffect]
    rcases writeCmd_cases v s with h | h | h | ⟨-, -, -, -, -, -, h⟩ <;> rw [h]
    · exact stickyRise_setErrBusy s
    · exact stickyRise_setErrCmd s
    · exact stickyRise_setErrCfg s
    · exact ⟨id, id, id, id, id⟩
  | rdata | press => exact stickyRise_refl s

/-- A write of a register other than STATUS leaves DONE, or is a CMD write that is accepted. -/
theorem writeEffect_done {r : Reg} (hr : r ≠ .status) (v : Word) (s : State) :
    (writeEffect v r s).done = s.done ∨ (r = .cmd ∧ (writeEffect v r s).ebusy = true) := by
  cases r with
  | status => exact absurd rfl hr
  | ctrl => rw [writeEffect, writeCtrl_frame]; exact .inl rfl
  | dr => rw [writeEffect, writeDr_frame]; exact .inl rfl
  | csctl => rw [writeEffect, writeCsctl_frame]; exact .inl rfl
  | rdata | press => exact .inl rfl
  | cmd =>
    rw [writeEffect]
    rcases writeCmd_cases v s with h | h | h | ⟨-, -, -, -, -, -, h⟩ <;> rw [h]
    · exact .inl rfl
    · exact .inl rfl
    · exact .inl rfl
    · exact .inr ⟨rfl, rfl⟩

/-! ### Instructions -/

/-- A micro-operation touches neither OVR nor an ERR bit. -/
theorem stickyRise_runOp {commit : State → State} (hf : CommitFrame commit) (s : State)
    (op : MicroOp) : StickyRise s (runOp commit s op) := by
  rw [runOp_frame hf]
  exact ⟨id, id, id, id, id⟩

/-- An instruction is a STATUS write, or it clears no sticky bit except DONE, and DONE only as an
accepted CMD write. -/
theorem exec_sticky_cases {i : Instr} {s t : State} (h : exec i s = .next t) :
    (∃ v, i = .wrStatus v ∧ t = State.clearSticky v (s.record (.hw Reg.status.off v))) ∨
    (StickyRise s t ∧
      (s.done = true → t.done = true ∨ ∃ v, i = .wrCmd v ∧ t.ebusy = true)) := by
  rcases instr_cases i with ⟨r, rfl⟩ | ⟨r, v, rfl⟩ | ⟨w, hw⟩
  · obtain ⟨-, v, rfl⟩ := exec_read_eq_next h
    exact .inr ⟨⟨id, id, id, id, id⟩, .inl⟩
  · obtain ⟨-, rfl⟩ := exec_write_eq_next.1 h
    by_cases hr : r = .status
    · subst hr
      exact .inl ⟨v, rfl, rfl⟩
    · obtain ⟨hovr, hcmd, hbusy, hcfg, htx⟩ :=
        stickyRise_writeEffect hr v (s.record (.hw r.off v))
      refine .inr ⟨⟨hovr, hcmd, hbusy, hcfg, htx⟩, fun hs => ?_⟩
      rcases writeEffect_done hr v (s.record (.hw r.off v)) with hd | ⟨rfl, hb⟩
      · exact .inl (hd.trans hs)
      · exact .inr ⟨v, rfl, hb⟩
  · rcases exec_command_next hw h with rfl | ⟨commit, op, hf, -, -, -, -, -, -, rfl⟩
    · exact .inr ⟨stickyRise_refl _, .inl⟩
    · exact .inr ⟨stickyRise_runOp hf s op, fun hs => .inl (runOp_keeps_done hf s op hs)⟩

/-- A bit that a STATUS write clears has a 1 in the value written (R81). -/
theorem eq_true_of_and_not_eq_false {b m : Bool} (hb : b = true) (h : (b && !m) = false) :
    m = true := by
  simpa [hb] using h

/-! ### Steps of SEQ -/

/-- A step of SEQ clears no sticky bit, and touches no ERR bit. -/
structure SeqKeepsSticky (s t : State) : Prop where
  ovr : s.ovr = true → t.ovr = true
  done : s.done = true → t.done = true
  errCmd : t.errCmd = s.errCmd
  errBusy : t.errBusy = s.errBusy
  errCfg : t.errCfg = s.errCfg
  errTxovw : t.errTxovw = s.errTxovw

theorem shiftLoad_keepsSticky (s : State) : SeqKeepsSticky s (shiftLoad s) := by
  rw [shiftLoad_frame]
  exact ⟨id, id, rfl, rfl, rfl, rfl⟩

/-- SHIFT_DONE only sets OVR. -/
theorem shiftDone_keepsSticky (s : State) : SeqKeepsSticky s (shiftDone s) := by
  rcases shiftDone_cases s with ⟨-, h⟩ | ⟨-, -, h⟩ | ⟨-, -, h⟩ <;> rw [h]
  · exact ⟨id, id, rfl, rfl, rfl, rfl⟩
  · exact ⟨fun _ => rfl, id, rfl, rfl, rfl, rfl⟩
  · exact ⟨id, id, rfl, rfl, rfl, rfl⟩

/-- A micro-operation only sets DONE. -/
theorem runOp_keepsSticky {commit : State → State} (hf : CommitFrame commit) (s : State)
    (op : MicroOp) : SeqKeepsSticky s (runOp commit s op) := by
  refine ⟨?_, runOp_keeps_done hf s op, ?_, ?_, ?_, ?_⟩ <;> rw [runOp_frame hf]
  exact id

theorem engineTurn_keepsSticky {s t : State} (h : engineTurn s = .next t) :
    SeqKeepsSticky s t := by
  rcases engineTurn_eq_next_runOp h with rfl | ⟨i, op, -, -, -, rfl⟩
  · exact ⟨id, id, rfl, rfl, rfl, rfl⟩
  · exact runOp_keepsSticky (commitOf_frame i) s op

theorem step_keepsSticky {s t : State} (h : step s = .next t) (hr : nextAgent s ≠ .rst)
    (hh : nextAgent s ≠ .host) : SeqKeepsSticky s.beginStep t := by
  rcases step_cases h with ⟨hn, -⟩ | ⟨-, rfl⟩ | ⟨-, rfl⟩ | ⟨-, h⟩ | ⟨hn, -⟩
  · exact absurd hn hh
  · exact shiftLoad_keepsSticky _
  · exact shiftDone_keepsSticky _
  · exact engineTurn_keepsSticky h
  · exact absurd hn hr

/-- Settles O20: a STATUS write clears by its mask, every other instruction keeps the bits but for
DONE at acceptance, and each step of SEQ keeps them. -/
theorem stickyBitsStay : Obligations.StickyBitsStay := by
  refine ⟨fun i s t h => ?_, fun s t h hr hh => ?_⟩
  · rcases exec_sticky_cases h with ⟨v, rfl, rfl⟩ | ⟨⟨hovr, hcmd, hbusy, hcfg, htx⟩, hdone⟩
    · exact ⟨fun hs ht => ⟨v, rfl, eq_true_of_and_not_eq_false hs ht⟩,
        fun hs ht => .inl ⟨v, rfl, eq_true_of_and_not_eq_false hs ht⟩,
        fun hs ht => ⟨v, rfl, eq_true_of_and_not_eq_false hs ht⟩,
        fun hs ht => ⟨v, rfl, eq_true_of_and_not_eq_false hs ht⟩,
        fun hs ht => ⟨v, rfl, eq_true_of_and_not_eq_false hs ht⟩,
        fun hs ht => ⟨v, rfl, eq_true_of_and_not_eq_false hs ht⟩⟩
    · exact ⟨fun hs ht => absurd (hovr hs) (ne_true_of_eq_false ht),
        fun hs ht => .inr ((hdone hs).resolve_left (ne_true_of_eq_false ht)),
        fun hs ht => absurd (hcmd hs) (ne_true_of_eq_false ht),
        fun hs ht => absurd (hbusy hs) (ne_true_of_eq_false ht),
        fun hs ht => absurd (hcfg hs) (ne_true_of_eq_false ht),
        fun hs ht => absurd (htx hs) (ne_true_of_eq_false ht)⟩
  · obtain ⟨hovr, hdone, hcmd, hbusy, hcfg, htx⟩ := step_keepsSticky h hr hh
    exact ⟨hovr, hdone, hcmd, hbusy, hcfg, htx⟩

end Sys2Proof.Machine
end

section
/-! SUPPORT. The default schedule runs SPIM until it is not busy (60_exceptions.md R121, log 1). -/

namespace Sys2Proof.Machine

/-! ### A command -/

/-- INIT has the longest micro-program. -/
theorem length_expand_le (w : Word) : (expand w).length ≤ 9 := by
  unfold expand
  split
  · next i _ =>
    cases i with
    | readn a n =>
      have hn : min n.toNat receiveOps.length ≤ 3 := Nat.min_le_right _ _
      simp only [Program.ofInstr, readnProgram, List.length_append, List.length_take,
        List.length_cons, List.length_nil]
      omega
    | _ => exact Nat.le_of_ble_eq_true rfl
  · exact Nat.zero_le 9

/-- A running command reaches the end of its FIN, one step an operation, wherever it stands. -/
theorem run_command_rest {s : State} (hi : Invariant s) (hc : s.clkOk = true) (hs : s.sched = [])
    (hb : s.ebusy = true) :
    ∃ n t, n + s.engIdx = (expand s.engCmd).length ∧
      Host.Core.run Sys2Proof.core n s = .next t ∧ t.bsy = false ∧ t.done = true ∧
      t.csN = true := by
  obtain ⟨hl, -, hops, hlt, -⟩ := hi.running hb
  obtain ⟨i, hd⟩ := legal_decodes hl
  obtain ⟨p, hp, hfin⟩ := expand_eq_append_fin hl
  have hx := exec_eq_engineStep_commitOf (encode_of_decodeCmd hd).2
  have hrun := running_of_invariant hi hc hs hb
  have hlen : (expand s.engCmd).length = p.length + 1 := by
    rw [hp, List.length_append, List.length_singleton]
  rw [hops] at hrun hlt
  have hle : s.engIdx ≤ p.length := by omega
  have hdrop : (expand s.engCmd).drop s.engIdx = p.drop s.engIdx ++ [.fin] := by
    rw [hp, List.drop_append_of_le_length hle]
  have hidx : s.engIdx + (p.drop s.engIdx).length = p.length := by
    rw [List.length_drop, Nat.add_sub_cancel' hle]
  obtain ⟨u, -, hu, hrun', -, -⟩ := hrun.run_ops hd hx hdrop (mt List.mem_of_mem_drop hfin)
  have ho : (expand s.engCmd)[p.length]? = some .fin := by rw [hp, List.getElem?_concat_length]
  rw [hidx, csAfter_take_expand ho] at hrun'
  obtain ⟨t, ht, -, -, -, -, hdone, hcs, hbsy, -, -⟩ :=
    hrun'.step_fin hd hx (commitOf_frame i) ho
  refine ⟨(p.drop s.engIdx).length + 1, t, by omega, ?_, hbsy, hdone, hcs⟩
  rw [hu 1, run_succ ht]
  rfl

/-! ### A manual byte -/

/-- SPIM is enabled, runs no command, and no turn is scheduled. -/
structure Manual (s : State) : Prop where
  clkOk : s.clkOk = true
  sched : s.sched = []
  en : s.en = true
  ebusy : s.ebusy = false

/-- A byte in the shifter is exchanged; TXBUF waits. -/
theorem Manual.step_shiftDone {s : State} (h : Manual s) (ha : s.shActive = true) :
    ∃ t, step s = .next t ∧ Manual t ∧ t.txe = s.txe ∧ t.shActive = false := by
  have hen : shiftDoneEnabled s = true := shiftDoneEnabled_iff.2 ⟨h.clkOk, h.en, ha⟩
  have hn : nextAgent s = .shiftDone := by simp [nextAgent, h.sched, defaultAgent, hen]
  have hsched : s.beginStep.sched = [] := by rw [beginStep_sched, h.sched, List.tail_nil]
  refine ⟨shiftDone s.beginStep, step_eq_takeTurn hn, ?_⟩
  rcases Bool.eq_false_or_eq_true s.beginStep.rxne with hr | hr
  · rw [shiftDone_of_overrun (s := s.beginStep) hen hr]
    exact ⟨⟨h.clkOk, hsched, h.en, h.ebusy⟩, rfl, rfl⟩
  · rw [shiftDone_of_received (s := s.beginStep) hen hr]
    exact ⟨⟨h.clkOk, hsched, h.en, h.ebusy⟩, rfl, rfl⟩

/-- A byte in TXBUF goes to the free shifter. -/
theorem Manual.step_shiftLoad {s : State} (h : Manual s) (ht : s.txe = false)
    (ha : s.shActive = false) :
    ∃ t, step s = .next t ∧ Manual t ∧ t.txe = true ∧ t.shActive = true := by
  have hen : shiftLoadEnabled s = true := shiftLoadEnabled_iff.2 ⟨h.clkOk, h.en, ht, ha⟩
  have hn : nextAgent s = .shiftLoad := by
    simp [nextAgent, h.sched, defaultAgent, shiftDoneEnabled, ha, hen]
  have hsched : s.beginStep.sched = [] := by rw [beginStep_sched, h.sched, List.tail_nil]
  refine ⟨shiftLoad s.beginStep, step_eq_takeTurn hn, ?_⟩
  rw [shiftLoad_of_enabled (s := s.beginStep) hen]
  exact ⟨⟨h.clkOk, hsched, h.en, h.ebusy⟩, rfl, rfl⟩

/-- The shifter's byte takes one step. -/
theorem Manual.run_shifter {s : State} (h : Manual s) (ht : s.txe = true) :
    ∃ n t, n ≤ 1 ∧ Host.Core.run Sys2Proof.core n s = .next t ∧ t.bsy = false := by
  cases ha : s.shActive with
  | false => exact ⟨0, s, Nat.zero_le 1, rfl, bsy_eq_false_iff.2 ⟨ht, ha, h.ebusy⟩⟩
  | true =>
    obtain ⟨t, hstep, hm, htxe, hact⟩ := h.step_shiftDone ha
    exact ⟨1, t, le_rfl, run_succ hstep, bsy_eq_false_iff.2 ⟨htxe.trans ht, hact, hm.ebusy⟩⟩

/-- TXBUF's byte takes two steps, once the shifter is free. -/
theorem Manual.run_txbuf {s : State} (h : Manual s) (ha : s.shActive = false) :
    ∃ n t, n ≤ 2 ∧ Host.Core.run Sys2Proof.core n s = .next t ∧ t.bsy = false := by
  cases ht : s.txe with
  | true => exact ⟨0, s, Nat.zero_le 2, rfl, bsy_eq_false_iff.2 ⟨ht, ha, h.ebusy⟩⟩
  | false =>
    obtain ⟨t, hstep, hm, htxe, -⟩ := h.step_shiftLoad ht ha
    obtain ⟨n, u, hn, hrun, hb⟩ := hm.run_shifter htxe
    exact ⟨n + 1, u, Nat.succ_le_succ hn, (run_succ hstep).trans hrun, hb⟩

/-- The shifter's byte, then TXBUF's: three steps at most. -/
theorem Manual.run_manual {s : State} (h : Manual s) :
    ∃ n t, n ≤ 3 ∧ Host.Core.run Sys2Proof.core n s = .next t ∧ t.bsy = false := by
  cases ha : s.shActive with
  | false =>
    obtain ⟨n, t, hn, hrun, hb⟩ := h.run_txbuf ha
    exact ⟨n, t, Nat.le_succ_of_le hn, hrun, hb⟩
  | true =>
    obtain ⟨t, hstep, hm, -, hact⟩ := h.step_shiftDone ha
    obtain ⟨n, u, hn, hrun, hb⟩ := hm.run_txbuf hact
    exact ⟨n + 1, u, Nat.succ_le_succ hn, (run_succ hstep).trans hrun, hb⟩

/-- Settles O57: a running command needs a step for each operation left, at most 9; else SPIM is
disabled and idle, or at most two manual bytes wait. -/
theorem neverHangs : Obligations.NeverHangs := by
  intro s hi hc hs
  cases hb : s.ebusy with
  | true =>
    obtain ⟨n, t, hn, hrun, hbsy, hdone, hcs⟩ := run_command_rest hi hc hs hb
    have hle := length_expand_le s.engCmd
    exact ⟨n, t, by omega, hrun, hbsy, fun _ => ⟨hdone, hcs⟩⟩
  | false =>
    cases hen : s.en with
    | false => exact ⟨0, s, Nat.zero_le 9, rfl, hi.disabledIdle hen, nofun⟩
    | true =>
      obtain ⟨n, t, hn, hrun, hbsy⟩ := Manual.run_manual ⟨hc, hs, hen, hb⟩
      exact ⟨n, t, by omega, hrun, hbsy, nofun⟩

end Sys2Proof.Machine
end

section
/-! SUPPORT. Reset: the values it leaves, when it is admitted, and that every step marks the run as started
(70_reset_and_hazards.md R124, R125). -/

namespace Sys2Proof.Machine

/-! ### When a reset is admitted -/

/-- A reset before the first step of a run is taken. -/
theorem step_rst_of_not_started {s : State} {rest : List Agent} (h : s.started = false)
    (hs : s.sched = .rst :: rest) : step s = .next s.beginStep.applyReset := by
  rw [step_eq_takeTurn (nextAgent_of_sched hs), h]
  rfl

/-- A reset after the first step of a run is refused. -/
theorem step_rst_of_started {s : State} {rest : List Agent} (h : s.started = true)
    (hs : s.sched = .rst :: rest) : step s = .refused .resetAfterFirstStep := by
  rw [step_eq_takeTurn (nextAgent_of_sched hs), h]
  rfl

/-! ### The reset values -/

/-- TXE is the one STATUS bit that is 1. -/
theorem reset_statusWord : State.reset.statusWord = 0x00000002 := by decide

/-- Chip-select's level is the one CSCTL bit that is 1. -/
theorem reset_csctlWord : State.reset.csctlWord = 0x00000002 := by decide

/-- STATUS, CSCTL and `cs_n` read nothing that a reset leaves to the environment. -/
theorem applyReset_statusWord (s : State) : s.applyReset.statusWord = State.reset.statusWord := rfl
theorem applyReset_csctlWord (s : State) : s.applyReset.csctlWord = State.reset.csctlWord := rfl
theorem applyReset_csN (s : State) : s.applyReset.csN = State.reset.csN := rfl

/-- Settles O52: the admitted reset is `State.applyReset`, whose fields are those of `State.reset`. -/
theorem resetValues : Obligations.ResetValues := by
  refine ⟨fun s rest h hs => ⟨s.beginStep.applyReset, step_rst_of_not_started h hs, rfl,
    (applyReset_statusWord _).trans reset_statusWord, (applyReset_csctlWord _).trans reset_csctlWord,
    rfl, rfl, rfl, rfl, rfl, rfl, rfl, rfl, rfl, rfl, rfl, rfl, rfl, applyReset_csN _, rfl⟩,
    rfl, reset_statusWord, reset_csctlWord, ?_⟩
  decide

/-! ### Every turn keeps the mark of a started run -/

@[simp] theorem writeEffect_started (v : Word) (r : Reg) (s : State) :
    (writeEffect v r s).started = s.started := by
  cases r with
  | ctrl => rw [writeEffect, writeCtrl_frame]
  | dr => rw [writeEffect, writeDr_frame]
  | csctl => rw [writeEffect, writeCsctl_frame]
  | cmd => rw [writeEffect, writeCmd_frame]
  | status | rdata | press => rfl

theorem hostTurn_started {s t : State} (h : hostTurn s = .next t) : t.started = s.started := by
  rcases hostTurn_event_cases h with rfl | ⟨r, v, rest, rest', rfl | rfl⟩
  · rfl
  · rfl
  · exact writeEffect_started v r _

theorem engineTurn_started {s t : State} (h : engineTurn s = .next t) : t.started = s.started := by
  rcases engineTurn_eq_next_runOp h with rfl | ⟨i, op, -, -, -, rfl⟩
  · rfl
  · rw [runOp_frame (commitOf_frame i)]

/-- A run is started once a step is taken: the agent's turn finds the mark and keeps it. -/
theorem step_started {s t : State} (h : step s = .next t) : t.started = true := by
  rcases step_cases h with ⟨-, ht⟩ | ⟨-, rfl⟩ | ⟨-, rfl⟩ | ⟨-, ht⟩ | ⟨-, -, rfl⟩
  · exact hostTurn_started ht
  · rw [shiftLoad_frame, beginStep_started]
  · rw [shiftDone_frame, beginStep_started]
  · exact engineTurn_started ht
  · rfl

/-- SPIM waits at reset: no internal step is enabled and HOST's turn has nothing to do. -/
theorem step_reset : step State.reset = .next { State.reset with started := true } := by
  have hn : nextAgent State.reset = .host := by decide
  calc step State.reset = hostTurn State.reset.beginStep := step_eq_takeTurn hn
    _ = .next State.reset.beginStep := hostTurn_of_nil rfl

/-- Settles O53: a step marks the run, and the mark refuses a reset. -/
theorem noResetAfterFirstStep : Obligations.NoResetAfterFirstStep :=
  ⟨rfl, step_reset, fun _ _ => step_started, fun _ _ => step_rst_of_started⟩

/-! ### The invariants at reset -/

/-- Settles O54: the engine is idle at reset. -/
theorem invariantAtReset : Obligations.InvariantAtReset :=
  ⟨invariant_reset, commandOnWire_of_idle rfl⟩

end Sys2Proof.Machine
end
